-- ==== Sys2Proof/Word.lean ====
section
/-! DEFINITION. The word types of MSYNC (spec 00_scope.md R12): a command word and a response word are 32
bits, a configuration register and a sample 16 bits, a message element one byte. -/

namespace Sys2Proof

/-- A command word or a response word: 32 bits (R12). -/
abbrev Word := BitVec 32

/-- A configuration register, a sample or a `data` field: 16 bits (R12). -/
abbrev Half := BitVec 16

/-- One element of the message buffer: 8 bits (20_memory.md R60). -/
abbrev Byte := BitVec 8

/-- A register number: the 8-bit `reg` field (30_encoding.md R80). -/
abbrev RegNumber := BitVec 8

end Sys2Proof
end

