-- ==== Sys2Proof/Syntax.lean ====
section
/-! DEFINITION. The commands of MSYNC (spec 30_encoding.md R83), one constructor per row of the opcode
table, over the names of the registers (10_state.md R25 and R34). -/

namespace Sys2Proof

/-- The nineteen configuration registers (10_state.md R25). -/
inductive CfgReg
  | mode | preStart | preLen | capBits | payLen | clsThr | markThr | glitch | win | calLen | deltaThr
  | pat | patLen | toneHs | toneF0 | toneF1 | toneF2 | toneF3 | toneTol
  deriving DecidableEq, Repr

/-- The nineteen read-only status registers (10_state.md R34). -/
inductive StatReg
  | status | err | pos | msgLen | rawLen | syncPos | syncBit | bitcnt | glitchCnt | skipCnt | dropCnt
  | warmCnt | histLen | calBase2 | wsum | wcnt | pNmax | pRawCap | pMsgCap
  deriving DecidableEq, Repr

/-- What a register number names (20_memory.md R68): a configuration register, a status register, or nothing. -/
inductive Reg
  | cfg (r : CfgReg)
  | stat (r : StatReg)
  | unimplemented (n : RegNumber)
  deriving DecidableEq, Repr

/-- The twelve commands (30_encoding.md R83). -/
inductive Instr
  /-- `NOP`, op 0x0 (43_orchestrator.md R203). -/
  | nop
  /-- `SRST`, op 0x1 (R204). -/
  | srst
  /-- `WRREG reg, data`, op 0x2 (44_register_access.md R231). -/
  | wrreg (reg : Reg) (data : Half)
  /-- `RDREG reg`, op 0x3 (R236). -/
  | rdreg (reg : Reg)
  /-- `START`, op 0x4 (43_orchestrator.md R205). -/
  | start
  /-- `SAMPLE data`, op 0x5 (41_synchronizer.md R140). -/
  | sample (data : Half)
  /-- `SKIP`, op 0x6 (R170). -/
  | skip
  /-- `END`, op 0x7 (43_orchestrator.md R208). -/
  | endCall
  /-- `CALS data`, op 0x8 (40_classifier.md R118). -/
  | cals (data : Half)
  /-- `CLRH`, op 0x9 (43_orchestrator.md R210). -/
  | clrh
  /-- `RDMSG index`, op 0xA (44_register_access.md R240). -/
  | rdmsg (index : Half)
  /-- `RDRAW index`, op 0xB (R242). -/
  | rdraw (index : Half)
  deriving DecidableEq, Repr

end Sys2Proof
end

