-- ==== Sys2Proof/WellFormed.lean ====
section
/-! DEFINITION. Which commands are well formed: the operand `unimplemented n` is meant only for the
register numbers that name nothing (10_state.md R25 last paragraph, 20_memory.md R68). Every other operand
is held at its field's width and has no ill-formed value. -/

namespace Sys2Proof

/-- The numbers of configuration registers: 0x00 to 0x0C and 0x10 to 0x15 (R68). -/
def isCfgNumber (n : RegNumber) : Bool :=
  decide (n.toNat ≤ 0x0C) || (decide (0x10 ≤ n.toNat) && decide (n.toNat ≤ 0x15))

/-- The numbers of status registers: 0x40 to 0x52 (R68). -/
def isStatNumber (n : RegNumber) : Bool :=
  decide (0x40 ≤ n.toNat) && decide (n.toNat ≤ 0x52)

/-- A register operand is well formed when a number it calls unimplemented is one (R25, R68). -/
def Reg.wellFormed : Reg → Bool
  | .cfg _ => true
  | .stat _ => true
  | .unimplemented n => !isCfgNumber n && !isStatNumber n

/-- A command is well formed when its register operand is. -/
def Instr.wellFormed : Instr → Bool
  | .wrreg reg _ => reg.wellFormed
  | .rdreg reg => reg.wellFormed
  | .nop => true
  | .srst => true
  | .start => true
  | .sample _ => true
  | .skip => true
  | .endCall => true
  | .cals _ => true
  | .clrh => true
  | .rdmsg _ => true
  | .rdraw _ => true

end Sys2Proof
end

