-- ==== Sys2Proof/Decode.lean ====
section
/-! DEFINITION. The command decoder, total on every 32-bit word (spec 30_encoding.md R80 to R86), the register
numbers (10_state.md R25, R34), and after them the encoder. -/

namespace Sys2Proof

/-- The register numbers of R25. -/
def CfgReg.number : CfgReg → RegNumber
  | .mode => 0x00
  | .preStart => 0x01
  | .preLen => 0x02
  | .capBits => 0x03
  | .payLen => 0x04
  | .clsThr => 0x05
  | .markThr => 0x06
  | .glitch => 0x07
  | .win => 0x08
  | .calLen => 0x09
  | .deltaThr => 0x0A
  | .pat => 0x0B
  | .patLen => 0x0C
  | .toneHs => 0x10
  | .toneF0 => 0x11
  | .toneF1 => 0x12
  | .toneF2 => 0x13
  | .toneF3 => 0x14
  | .toneTol => 0x15

/-- The register numbers of R34. -/
def StatReg.number : StatReg → RegNumber
  | .status => 0x40
  | .err => 0x41
  | .pos => 0x42
  | .msgLen => 0x43
  | .rawLen => 0x44
  | .syncPos => 0x45
  | .syncBit => 0x46
  | .bitcnt => 0x47
  | .glitchCnt => 0x48
  | .skipCnt => 0x49
  | .dropCnt => 0x4A
  | .warmCnt => 0x4B
  | .histLen => 0x4C
  | .calBase2 => 0x4D
  | .wsum => 0x4E
  | .wcnt => 0x4F
  | .pNmax => 0x50
  | .pRawCap => 0x51
  | .pMsgCap => 0x52

/-- Every configuration register, in the order of R25. -/
def CfgReg.all : List CfgReg :=
  [.mode, .preStart, .preLen, .capBits, .payLen, .clsThr, .markThr, .glitch, .win, .calLen, .deltaThr,
   .pat, .patLen, .toneHs, .toneF0, .toneF1, .toneF2, .toneF3, .toneTol]

/-- Every status register, in the order of R34. -/
def StatReg.all : List StatReg :=
  [.status, .err, .pos, .msgLen, .rawLen, .syncPos, .syncBit, .bitcnt, .glitchCnt, .skipCnt, .dropCnt,
   .warmCnt, .histLen, .calBase2, .wsum, .wcnt, .pNmax, .pRawCap, .pMsgCap]

/-- The register a number names (R25, R34); the numbers in neither table are unimplemented
(log 10). -/
def Reg.ofNumber (n : RegNumber) : Reg :=
  match CfgReg.all.find? (fun r => r.number == n) with
  | some r => .cfg r
  | none =>
    match StatReg.all.find? (fun r => r.number == n) with
    | some r => .stat r
    | none => .unimplemented n

/-- The number of a register operand. -/
def Reg.number : Reg → RegNumber
  | .cfg r => r.number
  | .stat r => r.number
  | .unimplemented n => n

/-- `op`, bits 31:28 (R80). -/
def opField (w : Word) : BitVec 4 := w.extractLsb' 28 4

/-- `reg`, bits 23:16 (R80). -/
def regField (w : Word) : RegNumber := w.extractLsb' 16 8

/-- `data`, bits 15:0, never scaled or shifted (R80, R82). -/
def dataField (w : Word) : Half := w.extractLsb' 0 16

/-- Why a word is no command. -/
inductive DecodeError
  /-- Opcodes 0xC to 0xF are illegal (R84). Raised by `decode`; safe: the step answers it as R84 says. -/
  | illegalOpcode (op : BitVec 4)
  deriving DecidableEq, Repr

/-- The decoder: it looks at `op` alone to select the command (R81, R83); the bits a format does not use are
ignored (R85); 0xC to 0xF are rejected by name (R84, log 11). -/
def decode (w : Word) : Except DecodeError Instr :=
  match (opField w).toNat with
  | 0x0 => .ok .nop
  | 0x1 => .ok .srst
  | 0x2 => .ok (.wrreg (Reg.ofNumber (regField w)) (dataField w))
  | 0x3 => .ok (.rdreg (Reg.ofNumber (regField w)))
  | 0x4 => .ok .start
  | 0x5 => .ok (.sample (dataField w))
  | 0x6 => .ok .skip
  | 0x7 => .ok .endCall
  | 0x8 => .ok (.cals (dataField w))
  | 0x9 => .ok .clrh
  | 0xA => .ok (.rdmsg (dataField w))
  | 0xB => .ok (.rdraw (dataField w))
  | _ => .error (.illegalOpcode (opField w))

/-- The word with these fields and bits 27:24 zero, as a well-behaved host writes it (R80). -/
def fieldsWord (op : BitVec 4) (reg : RegNumber) (data : Half) : Word :=
  op ++ (0#4 ++ (reg ++ data))

/-- The encoder (R81 to R83); the fields that a format does not use are 0. -/
def encode : Instr → Word
  | .nop => fieldsWord 0x0 0 0
  | .srst => fieldsWord 0x1 0 0
  | .wrreg reg data => fieldsWord 0x2 reg.number data
  | .rdreg reg => fieldsWord 0x3 reg.number 0
  | .start => fieldsWord 0x4 0 0
  | .sample data => fieldsWord 0x5 0 data
  | .skip => fieldsWord 0x6 0 0
  | .endCall => fieldsWord 0x7 0 0
  | .cals data => fieldsWord 0x8 0 data
  | .clrh => fieldsWord 0x9 0 0
  | .rdmsg index => fieldsWord 0xA 0 index
  | .rdraw index => fieldsWord 0xB 0 index

/-- The bits of a command word that its format uses (R81): the patterns of formats N, D, W, R and I. -/
def Instr.formatMask : Instr → Word
  | .nop => 0xF0000000
  | .srst => 0xF0000000
  | .wrreg _ _ => 0xF0FFFFFF
  | .rdreg _ => 0xF0FF0000
  | .start => 0xF0000000
  | .sample _ => 0xF000FFFF
  | .skip => 0xF0000000
  | .endCall => 0xF0000000
  | .cals _ => 0xF000FFFF
  | .clrh => 0xF0000000
  | .rdmsg _ => 0xF000FFFF
  | .rdraw _ => 0xF000FFFF

/-- The command word whose low `nbits` bits are `w`'s and whose other bits are 0: a command is one 32-bit
word (R80), so nothing is left to lay out. -/
def tableWord (nbits w : Nat) : Word := BitVec.ofNat 32 (w % 2 ^ nbits)

/-- What the decoder reads from a row of the opcode table. -/
def decodeTableWord (nbits w : Nat) : Option Instr :=
  match decode (tableWord nbits w) with
  | .ok i => some i
  | .error _ => none

end Sys2Proof
end

