-- ==== Sys2Proof/Config.lean ====
section
/-! DEFINITION. What an MSYNC instance fixes: the three sizes of spec 00_scope.md R11 (decision D5, left
open there as "arguments of the model"). A state carries the sizes of its instance (log 5). -/

namespace Sys2Proof

/-- The three sizes of an instance (R11). -/
structure Params where
  /-- `NMAX`: capacity of HIST in samples. -/
  nmax : Nat
  /-- `RAW_CAP`: capacity of RAW in bits. -/
  rawCap : Nat
  /-- `MSG_CAP`: capacity of MSG in bytes. -/
  msgCap : Nat
  deriving DecidableEq, Repr

/-- The constraints of R11: 1 ≤ NMAX ≤ 65535; RAW_CAP a multiple of 32 from 32 to 2^21; 1 ≤ MSG_CAP ≤ 65536. -/
abbrev Params.Legal (p : Params) : Prop :=
  (1 ≤ p.nmax ∧ p.nmax ≤ 65535) ∧
  (p.rawCap % 32 = 0 ∧ 32 ≤ p.rawCap ∧ p.rawCap ≤ 2 ^ 21) ∧
  (1 ≤ p.msgCap ∧ p.msgCap ≤ 65536)

/-- The sizes the spec's own test vectors use (R11, last column). DESIGN CHOICE, unsafe (log 5): the instance
that `State.reset` describes has these; the spec leaves the sizes open and no statement rests on them. -/
def Params.vectors : Params := { nmax := 32, rawCap := 4096, msgCap := 256 }

end Sys2Proof
end

