-- ==== Sys2Proof/Machine/State.lean ====
section
/-! DEFINITION. The architectural state of MSYNC as plain data (spec 10_state.md R20: five classes), with the
instance's sizes (log 5) and the command and response ports (log 1, log 3), the reset state (R48), and the
ways a step can stop (none: 60_exceptions.md R255). -/

namespace Sys2Proof.Machine

/-- `FSM`, the state of the decode call (R22). The codes 3 and 7 never occur and have no name (log 7). -/
inductive Fsm
  | idle | search | payload | silence | done | unsynced
  deriving DecidableEq, Repr

/-- The sticky error causes, the bits of `ERR` (R36, 60_exceptions.md R252). -/
inductive ErrBit
  | ill | addr | seq | cfgBusy | cfgVal | noCal | range
  deriving DecidableEq, Repr

/-- Class 1 of R20: the nineteen 16-bit configuration registers (R25). -/
structure Cfg where
  mode : Half
  preStart : Half
  preLen : Half
  capBits : Half
  payLen : Half
  clsThr : Half
  markThr : Half
  glitch : Half
  win : Half
  calLen : Half
  deltaThr : Half
  pat : Half
  patLen : Half
  toneHs : Half
  toneF0 : Half
  toneF1 : Half
  toneF2 : Half
  toneF3 : Half
  toneTol : Half
  deriving DecidableEq, Repr

/-- Class 2 of R20: what a decode call builds, cleared by `START`; the buffers' contents are in `Memory`. -/
structure Call where
  /-- R22 -/
  fsm : Fsm
  /-- R23: records consumed in this call, saturating. -/
  pos : BitVec 32
  /-- R24, R40: the presence accumulator, two's complement. -/
  wsum : BitVec 32
  /-- R24, R40: the number of samples in `wsum`. -/
  wcnt : BitVec 16
  /-- R42: the last up-to-16 bits of a pattern search, newest in bit 0. -/
  sr : BitVec 16
  /-- R37: bits emitted in this call, saturating. -/
  bitcnt : BitVec 32
  /-- R42: the byte being assembled. -/
  acc : BitVec 8
  /-- R42: the number of bits in `acc`, 0 to 7. -/
  bitn : BitVec 3
  /-- R37: `POS` when sync was achieved. -/
  syncPos : BitVec 32
  /-- R37: `BITCNT` when sync was achieved. -/
  syncBit : BitVec 32
  /-- R35: pattern search ended without a match. -/
  nopre : Bool
  /-- R35: the capture ended inside the payload. -/
  short : Bool
  /-- R35: a bit could not be stored in `RAW`. -/
  rawovf : Bool
  /-- R35: a byte could not be stored in `MSG`. -/
  msgovf : Bool
  /-- R35: leftover bits at the end of the call, 0 to 7. -/
  left : BitVec 3
  /-- R39 -/
  glitchCnt : BitVec 16
  /-- R39 -/
  skipCnt : BitVec 16
  /-- R39 -/
  dropCnt : BitVec 16
  /-- R39 -/
  warmCnt : BitVec 16
  deriving DecidableEq, Repr

/-- Class 3 of R20: the persistent classifier state, which survives `START` (R43, R44). -/
structure Classifier where
  /-- R43: the history, oldest first, each sample 16 bits two's complement. -/
  hist : List Half
  /-- R44: the calibrated baseline has been fixed. -/
  calValid : Bool
  /-- R44: twice the calibrated baseline, 17 bits signed. -/
  calBase2 : BitVec 17
  deriving DecidableEq, Repr

/-- Class 5 of R20: the two output buffers. A list holds exactly what a reader can see (20_memory.md R66): its
element `i` is `MSG[i]` or `RAW[i]` and its length is `MSG_LEN` or `RAW_LEN` (R38), so equal buffers are equal
data (log 6). -/
structure Memory where
  /-- 20_memory.md R60: the reassembled bytes. -/
  msg : List Byte
  /-- 20_memory.md R61: the emitted bits. -/
  raw : List Bool
  deriving DecidableEq, Repr

/-- What arrives on the command port: whole commands, and hardware resets between them (70_reset_and_hazards.md
R281). -/
inductive PortEvent
  | command (w : Word)
  | hardwareReset
  deriving DecidableEq, Repr

/-- The state. `params` is constant (R41, log 5); `port` and `responses` are the step function's input and
output (43_orchestrator.md R200, log 1, log 3); the rest is Σ of R20. -/
structure State where
  params : Params
  cfg : Cfg
  call : Call
  cls : Classifier
  err : BitVec 7
  mem : Memory
  port : List PortEvent
  responses : List Word
  deriving DecidableEq, Repr

/-- The reasons a step could stop with a fault. There are none: no error is fatal, none disables the block, and
there is no halt, lock-up or undefined state (60_exceptions.md R250, R255). -/
inductive Fault
  deriving DecidableEq, Repr

/-- The reasons a command could be refused. -/
inductive Refusal
  /-- A command without a meaning. Raised by an arm of `exec` alone; safe. No arm raises it: all twelve commands
  have their meaning. -/
  | notModelled (mnemonic : String)
  deriving DecidableEq, Repr

/-- The configuration after reset (R48). -/
def Cfg.reset : Cfg :=
  { mode := 0x0000, preStart := 0, preLen := 0, capBits := 0, payLen := 0, clsThr := 0, markThr := 0,
    glitch := 0x8000, win := 1, calLen := 1, deltaThr := 0, pat := 0, patLen := 0, toneHs := 0, toneF0 := 0,
    toneF1 := 0, toneF2 := 0, toneF3 := 0, toneTol := 0 }

/-- The per-call state after reset (R48). -/
def Call.reset : Call :=
  { fsm := .idle, pos := 0, wsum := 0, wcnt := 0, sr := 0, bitcnt := 0, acc := 0, bitn := 0, syncPos := 0,
    syncBit := 0, nopre := false, short := false, rawovf := false, msgovf := false, left := 0,
    glitchCnt := 0, skipCnt := 0, dropCnt := 0, warmCnt := 0 }

/-- No history and no calibration: the value after reset and after `CLRH` (R43, R44, R48). -/
def Classifier.reset : Classifier := { hist := [], calValid := false, calBase2 := 0 }

/-- Nothing stored: `MSG_LEN = 0` and `RAW_LEN = 0` (R47, R48). -/
def Memory.reset : Memory := { msg := [], raw := [] }

/-- The reset state of an instance with sizes `p` (R48), nothing sent to it and nothing answered. -/
def State.resetWith (p : Params) : State :=
  { params := p, cfg := .reset, call := .reset, cls := .reset, err := 0, mem := .reset, port := [],
    responses := [] }

/-- The reset state (R48) of the instance the spec's vectors use (log 5). -/
def State.reset : State := State.resetWith .vectors

/-- Every buffer is within its capacity (20_memory.md R60, R61; 10_state.md R34). -/
abbrev Memory.wf (p : Params) (m : Memory) : Prop :=
  m.msg.length ≤ p.msgCap ∧ m.raw.length ≤ p.rawCap

/-- The state with another configuration. -/
def State.withCfg (s : State) (c : Cfg) : State := { s with cfg := c }
/-- The state with another per-call state. -/
def State.withCall (s : State) (c : Call) : State := { s with call := c }
/-- The state with another classifier state. -/
def State.withCls (s : State) (c : Classifier) : State := { s with cls := c }
/-- The state with another `ERR`. -/
def State.withErr (s : State) (e : BitVec 7) : State := { s with err := e }
/-- The state with other buffer contents. -/
def State.withMem (s : State) (m : Memory) : State := { s with mem := m }
/-- The state with another list of waiting port events. -/
def State.withPort (s : State) (l : List PortEvent) : State := { s with port := l }
/-- The state with another list of responses. -/
def State.withResponses (s : State) (l : List Word) : State := { s with responses := l }

end Sys2Proof.Machine
end

