-- ==== Sys2Proof/Machine/Operands.lean ====
section
/-! DEFINITION. How operands and configuration registers are read: extension, saturation, the fields of MODE,
and the two derived lengths (spec 00_scope.md R16, 10_state.md R25 to R33, 30_encoding.md R82). -/

namespace Sys2Proof.Machine

/-- `sext_16` (R16): the 16 bits as two's complement. -/
def sext16 (v : Half) : Int := v.toInt

/-- `zext_16` (R16): the 16 bits as unsigned. -/
def zext16 (v : Half) : Nat := v.toNat

/-- `sat16` (R16). -/
def sat16 (n : Nat) : BitVec 16 := BitVec.ofNat 16 (min n 0xFFFF)

/-- `sat32` (R16). -/
def sat32 (n : Nat) : BitVec 32 := BitVec.ofNat 32 (min n 0xFFFFFFFF)

/-- A saturating 16-bit event counter advanced by one (R39). -/
def bump16 (c : BitVec 16) : BitVec 16 := sat16 (c.toNat + 1)

/-- A saturating 32-bit counter advanced by one (R23, R37). -/
def bump32 (c : BitVec 32) : BitVec 32 := sat32 (c.toNat + 1)

/-- `MODE.SYNC` (R26): the synchronizer strategy; `reserved` is never in the register (R26, log 8). -/
inductive Sync
  | pos | pat | tone | reserved
  deriving DecidableEq, Repr

/-- `MODE.CLS` (R26): the classifier policy; `reserved` is never in the register (R26, log 8). -/
inductive Policy
  | fixed | adapt | cal | reserved
  deriving DecidableEq, Repr

/-- `MODE[1:0]` (R26). -/
def Cfg.sync (c : Cfg) : Sync :=
  match (c.mode.extractLsb' 0 2).toNat with
  | 0 => .pos
  | 1 => .pat
  | 2 => .tone
  | _ => .reserved

/-- `MODE[5:4]` (R26). -/
def Cfg.policy (c : Cfg) : Policy :=
  match (c.mode.extractLsb' 4 2).toNat with
  | 0 => .fixed
  | 1 => .adapt
  | 2 => .cal
  | _ => .reserved

/-- `MODE[8]`, `BASE` (R26): true selects the median, false the mean. -/
def Cfg.baseMedian (c : Cfg) : Bool := c.mode.getLsbD 8

/-- `MODE[12]`, `TPOL` (R26): the policy for an unmatched tone chunk. Only drop-and-continue exists, a write that
sets the bit is refused (R234), and no rule reads it. -/
def Cfg.tpol (c : Cfg) : Bool := c.mode.getLsbD 12

/-- `L = min(PAY_LEN, CAP_BITS)`, the effective payload length (41_synchronizer.md R143). -/
def Cfg.payloadLen (c : Cfg) : Nat := min (zext16 c.payLen) (zext16 c.capBits)

/-- `S = PRE_START + PRE_LEN`, computed without wrap-around (41_synchronizer.md R150). -/
def Cfg.payloadStart (c : Cfg) : Nat := zext16 c.preStart + zext16 c.preLen

/-- The record index lies in the preamble index window `PRE_START ≤ p < S` (R27, 41_synchronizer.md R150). -/
def Cfg.inWindow (c : Cfg) (p : Nat) : Bool := decide (zext16 c.preStart ≤ p) && decide (p < c.payloadStart)

/-- The nominal frequency of data symbol `k`, `TONE_Fk` (R33). -/
def Cfg.toneF (c : Cfg) (k : BitVec 2) : Half :=
  match k.toNat with
  | 0 => c.toneF0
  | 1 => c.toneF1
  | 2 => c.toneF2
  | _ => c.toneF3

/-- The value of a configuration register, the 16 bits as written (R25). -/
def Cfg.read (c : Cfg) : CfgReg → Half
  | .mode => c.mode
  | .preStart => c.preStart
  | .preLen => c.preLen
  | .capBits => c.capBits
  | .payLen => c.payLen
  | .clsThr => c.clsThr
  | .markThr => c.markThr
  | .glitch => c.glitch
  | .win => c.win
  | .calLen => c.calLen
  | .deltaThr => c.deltaThr
  | .pat => c.pat
  | .patLen => c.patLen
  | .toneHs => c.toneHs
  | .toneF0 => c.toneF0
  | .toneF1 => c.toneF1
  | .toneF2 => c.toneF2
  | .toneF3 => c.toneF3
  | .toneTol => c.toneTol

/-- `r[reg] <- data` for a configuration register (44_register_access.md R231). -/
def Cfg.write (c : Cfg) (r : CfgReg) (v : Half) : Cfg :=
  match r with
  | .mode => { c with mode := v }
  | .preStart => { c with preStart := v }
  | .preLen => { c with preLen := v }
  | .capBits => { c with capBits := v }
  | .payLen => { c with payLen := v }
  | .clsThr => { c with clsThr := v }
  | .markThr => { c with markThr := v }
  | .glitch => { c with glitch := v }
  | .win => { c with win := v }
  | .calLen => { c with calLen := v }
  | .deltaThr => { c with deltaThr := v }
  | .pat => { c with pat := v }
  | .patLen => { c with patLen := v }
  | .toneHs => { c with toneHs := v }
  | .toneF0 => { c with toneF0 := v }
  | .toneF1 => { c with toneF1 := v }
  | .toneF2 => { c with toneF2 := v }
  | .toneF3 => { c with toneF3 := v }
  | .toneTol => { c with toneTol := v }

/-- A legal value of `MODE`: no reserved bit set (`TPOL` counts as one), `SYNC ≠ 3`, `CLS ≠ 3` (R26, R234). -/
def legalMode (d : Half) : Bool :=
  decide (d &&& 0xFECC = 0) && decide (d.extractLsb' 0 2 ≠ 3) && decide (d.extractLsb' 4 2 ≠ 3)

/-- `Legal(reg, data)` (44_register_access.md R234). -/
def legalValue (p : Params) (r : CfgReg) (d : Half) : Bool :=
  match r with
  | .mode => legalMode d
  | .win => decide (1 ≤ d.toNat) && decide (d.toNat ≤ p.nmax)
  | .calLen => decide (1 ≤ d.toNat) && decide (d.toNat ≤ p.nmax)
  | .patLen => decide (d.toNat ≤ 16)
  | _ => true

/-- The registers whose accepted write empties the history and clears the calibration (R233). -/
def clearsHistory : CfgReg → Bool
  | .mode => true
  | .win => true
  | .calLen => true
  | _ => false

end Sys2Proof.Machine
end

