-- ==== Sys2Proof/Machine/Flags.lean ====
section
/-! DEFINITION. The codes of FSM, the bits of ERR, the STATUS word, the status registers and the two output
levels, all computed from the state (spec 10_state.md R22, R34 to R41, R49). -/

namespace Sys2Proof.Machine

/-- The 3-bit code of an `FSM` state (R22). -/
def Fsm.code : Fsm → BitVec 3
  | .idle => 0
  | .search => 1
  | .payload => 2
  | .silence => 4
  | .done => 5
  | .unsynced => 6

/-- Running: `SEARCH` or `PAYLOAD` (00_scope.md R19). -/
def Fsm.running : Fsm → Bool
  | .search => true
  | .payload => true
  | _ => false

/-- Terminal: `SILENCE`, `DONE` or `UNSYNCED` (R22). -/
def Fsm.terminal : Fsm → Bool
  | .silence => true
  | .done => true
  | .unsynced => true
  | _ => false

/-- The bit number of an error cause in `ERR` (R36, 60_exceptions.md R252). -/
def ErrBit.index : ErrBit → Nat
  | .ill => 0
  | .addr => 1
  | .seq => 2
  | .cfgBusy => 3
  | .cfgVal => 4
  | .noCal => 5
  | .range => 6

/-- The mask of an error cause (60_exceptions.md R252). -/
def ErrBit.mask (e : ErrBit) : BitVec 7 := 1#7 <<< e.index

/-- `STATUS` (R35): reserved 31:12, LEFT 11:9, CALV 8, MSGOVF 7, RAWOVF 6, SHORT 5, NOPRE 4, reserved 3, FSM 2:0. -/
def statusWord (c : Call) (calValid : Bool) : Word :=
  0#20 ++ (c.left ++ (BitVec.ofBool calValid ++ (BitVec.ofBool c.msgovf ++ (BitVec.ofBool c.rawovf ++
    (BitVec.ofBool c.short ++ (BitVec.ofBool c.nopre ++ (0#1 ++ c.fsm.code)))))))

/-- The value `RDREG` returns for a status register (R34, 44_register_access.md R236): zero-extended, except
`CAL_BASE2` and `WSUM`, which are sign-extended. -/
def statusValue (s : State) : StatReg → Word
  | .status => statusWord s.call s.cls.calValid
  | .err => s.err.setWidth 32
  | .pos => s.call.pos
  | .msgLen => BitVec.ofNat 32 s.mem.msg.length
  | .rawLen => BitVec.ofNat 32 s.mem.raw.length
  | .syncPos => s.call.syncPos
  | .syncBit => s.call.syncBit
  | .bitcnt => s.call.bitcnt
  | .glitchCnt => s.call.glitchCnt.setWidth 32
  | .skipCnt => s.call.skipCnt.setWidth 32
  | .dropCnt => s.call.dropCnt.setWidth 32
  | .warmCnt => s.call.warmCnt.setWidth 32
  | .histLen => BitVec.ofNat 32 s.cls.hist.length
  | .calBase2 => s.cls.calBase2.signExtend 32
  | .wsum => s.call.wsum
  | .wcnt => s.call.wcnt.setWidth 32
  | .pNmax => BitVec.ofNat 32 s.params.nmax
  | .pRawCap => BitVec.ofNat 32 s.params.rawCap
  | .pMsgCap => BitVec.ofNat 32 s.params.msgCap

/-- The output level `done = FSM[2]` (R49, 60_exceptions.md R256). -/
def State.doneLevel (s : State) : Bool := s.call.fsm.code.getLsbD 2

/-- The output level `err = (ERR ≠ 0)` (R49, 60_exceptions.md R256). -/
def State.errLevel (s : State) : Bool := decide (s.err ≠ 0)

end Sys2Proof.Machine
end

