-- ==== Sys2Proof/Machine/Ops.lean ====
section
/-! DEFINITION. The operations that the commands share: raising an error (MSYNC's only exception mechanism,
spec 60_exceptions.md R250, R251; nothing returns from one), responding, the counters, the history, the
buffers, and the command port. -/

namespace Sys2Proof.Machine

/-- `ERR[bit(E)] <- 1` (60_exceptions.md R251). Nothing is saved and control goes nowhere (R250). -/
def raise (e : ErrBit) (s : State) : State := s.withErr (s.err ||| e.mask)

/-- `respond(v)`: one response word leaves, after all earlier ones (00_scope.md R16, 20_memory.md R71). -/
def respond (v : Word) (s : State) : State := s.withResponses (s.responses ++ [v])

/-- `POS <- sat32(POS + 1)` (10_state.md R23, 41_synchronizer.md R142). -/
def advancePos (s : State) : State := s.withCall { s.call with pos := bump32 s.call.pos }

/-- `GLITCH_CNT <- sat16(GLITCH_CNT + 1)` (40_classifier.md R111). -/
def countGlitch (s : State) : State := s.withCall { s.call with glitchCnt := bump16 s.call.glitchCnt }

/-- `SKIP_CNT <- sat16(SKIP_CNT + 1)` (41_synchronizer.md R170). -/
def countSkip (s : State) : State := s.withCall { s.call with skipCnt := bump16 s.call.skipCnt }

/-- `DROP_CNT <- sat16(DROP_CNT + 1)` (41_synchronizer.md R167). -/
def countDrop (s : State) : State := s.withCall { s.call with dropCnt := bump16 s.call.dropCnt }

/-- `WARM_CNT <- sat16(WARM_CNT + 1)` (40_classifier.md R117, R121). -/
def countWarm (s : State) : State := s.withCall { s.call with warmCnt := bump16 s.call.warmCnt }

/-- `HIST <- []; CAL_VALID <- 0; CAL_BASE2 <- 0` (10_state.md R43, R44; 43_orchestrator.md R210). -/
def clearHistory (s : State) : State := s.withCls .reset

/-- `Σ <- reset state` (43_orchestrator.md R204): the sizes of the instance stay, and so do the commands still to
come and the responses already given (70_reset_and_hazards.md R281). -/
def resetState (s : State) : State :=
  ((State.resetWith s.params).withPort s.port).withResponses s.responses

/-- A bit at the low end, the rest shifted up: `((a << 1) | b)` at the width of `a` (42_reassembler.md R181). -/
def shiftIn {n : Nat} (a : BitVec n) (b : Bool) : BitVec n :=
  (a <<< 1) ||| (BitVec.ofBool b).setWidth n

/-- Part 1 of `EmitBit` (42_reassembler.md R181): the bit goes to `RAW` if there is room, else `RAWOVF` is set; it
is counted either way. -/
def storeRawBit (b : Bool) (s : State) : State :=
  if s.mem.raw.length < s.params.rawCap then
    (s.withMem { s.mem with raw := s.mem.raw ++ [b] }).withCall
      { s.call with bitcnt := bump32 s.call.bitcnt }
  else
    s.withCall { s.call with bitcnt := bump32 s.call.bitcnt, rawovf := true }

/-- `StoreByte(x)` (42_reassembler.md R183): the byte goes to `MSG` if there is room, else `MSGOVF` is set. -/
def storeByte (x : Byte) (s : State) : State :=
  if s.mem.msg.length < s.params.msgCap then
    s.withMem { s.mem with msg := s.mem.msg ++ [x] }
  else
    s.withCall { s.call with msgovf := true }

/-- `MemRead(MSG, i, 1)` (00_scope.md R16): `MSG[i]` where `i < MSG_LEN`, nothing elsewhere (20_memory.md R66). -/
def Memory.readMsg (m : Memory) (i : Nat) : Option Byte := m.msg[i]?

/-- `MemRead(RAW, j, 1)` (00_scope.md R16): `RAW[j]` where `j < RAW_LEN`, nothing elsewhere (20_memory.md R66). -/
def Memory.readRaw (m : Memory) (j : Nat) : Option Bool := m.raw[j]?

/-- The `n` bits of a bit list from index `base` on, the earliest in the most significant position, 0 at and
beyond the list's end (20_memory.md R64). -/
def packBits (raw : List Bool) (base : Nat) : (n : Nat) → BitVec n
  | 0 => 0#0
  | n + 1 => (packBits raw base n).concat (raw.getD (base + n) false)

/-- Word `w` of `RAW` (20_memory.md R64, 44_register_access.md R242). -/
def Memory.rawWord (m : Memory) (w : Nat) : Word := packBits m.raw (32 * w) 32

/-- An event arrives: it will be the next that the block takes. -/
def placeEvent (e : PortEvent) (s : State) : State := s.withPort (e :: s.port)

end Sys2Proof.Machine
end

