-- ==== Sys2Proof/Machine/Access.lean ====
section
/-! DEFINITION. The register and buffer access commands (spec 44_register_access.md R231 to R245). -/

namespace Sys2Proof.Machine

/-- An accepted write of a configuration register, with the side effect of three of them (R231, R233). -/
def writeCfg (r : CfgReg) (d : Half) (s : State) : State :=
  if clearsHistory r then clearHistory (s.withCfg (s.cfg.write r d)) else s.withCfg (s.cfg.write r d)

/-- `WRREG` (R231, R232): the checks in the order CFGBUSY, ADDR, CFGVAL (60_exceptions.md R253). -/
def execWrreg (reg : Reg) (data : Half) (s : State) : Host.Outcome State Fault Refusal :=
  if s.call.fsm.running then .next (raise .cfgBusy s)
  else
    match reg with
    | .cfg r => if legalValue s.params r data then .next (writeCfg r data s) else .next (raise .cfgVal s)
    | .stat _ => .next (raise .addr s)
    | .unimplemented _ => .next (raise .addr s)

/-- `RDREG` (R236, R237). -/
def execRdreg (reg : Reg) (s : State) : Host.Outcome State Fault Refusal :=
  match reg with
  | .cfg r => .next (respond ((s.cfg.read r).setWidth 32) s)
  | .stat r => .next (respond (statusValue s r) s)
  | .unimplemented _ => .next (raise .addr (respond 0 s))

/-- `RDMSG` (R240, R241). -/
def execRdmsg (index : Half) (s : State) : Host.Outcome State Fault Refusal :=
  match s.mem.readMsg (zext16 index) with
  | some b => .next (respond (b.setWidth 32) s)
  | none => .next (raise .range (respond 0 s))

/-- `RDRAW` (R242, R243). -/
def execRdraw (index : Half) (s : State) : Host.Outcome State Fault Refusal :=
  if 32 * zext16 index < s.mem.raw.length then .next (respond (s.mem.rawWord (zext16 index)) s)
  else .next (raise .range (respond 0 s))

end Sys2Proof.Machine
end

