-- ==== Sys2Proof/Machine/Classifier.lean ====
section
/-! DEFINITION. The threshold classifier, the glitch filter, the tone symbol mapper and the CALS command
(spec 40_classifier.md R110 to R127). -/

namespace Sys2Proof.Machine

/-- `Glitch(v)`: `v < GLITCH`, signed and strict (R111). -/
def glitch (c : Cfg) (v : Half) : Bool := decide (sext16 v < sext16 c.glitch)

/-- The samples of a history as integers. -/
def samples (hist : List Half) : List Int := hist.map sext16

/-- `Median2` of R115: twice the median of the samples. -/
def median2 (hist : List Half) : Int :=
  let srt := (samples hist).insertionSort (· ≤ ·)
  let n := hist.length
  if n % 2 = 1 then 2 * srt.getD ((n - 1) / 2) 0
  else srt.getD (n / 2 - 1) 0 + srt.getD (n / 2) 0

/-- The mean test of R114: `n·v − Σ ≥ n·DELTA_THR`. -/
def meanTest (c : Cfg) (hist : List Half) (v : Half) : Bool :=
  let n : Int := hist.length
  decide (n * sext16 v - (samples hist).sum ≥ n * sext16 c.deltaThr)

/-- The test against a doubled baseline of R115 and R120: `2·v − base2 ≥ 2·DELTA_THR`. -/
def base2Test (c : Cfg) (base2 : Int) (v : Half) : Bool :=
  decide (2 * sext16 v - base2 ≥ 2 * sext16 c.deltaThr)

/-- The bit that `Classify(v)` returns (R112 to R115, R117, R120, R121), from the history before the sample is
pushed (R116). The reserved policy is never in the register (R26) and gives no bit (log 8). -/
def classifyBit (c : Cfg) (k : Classifier) (v : Half) : Option Bool :=
  match c.policy with
  | .fixed => some (decide (sext16 v > sext16 c.clsThr))
  | .adapt =>
    if k.hist = [] then none
    else if c.baseMedian then some (base2Test c (median2 k.hist) v)
    else some (meanTest c k.hist v)
  | .cal => if k.calValid then some (base2Test c k.calBase2.toInt v) else none
  | .reserved => none

/-- The push of R116: the sample joins the history, and the oldest leaves if the window is exceeded. -/
def pushSample (win : Nat) (hist : List Half) (v : Half) : List Half :=
  if (hist ++ [v]).length > win then (hist ++ [v]).tail else hist ++ [v]

/-- What `Classify(v)` does to the state (R110): the push and the warm-up count of `ADAPT` (R116, R117), the error
bit and the count of an uncalibrated `CAL` (R121), nothing under `FIXED` (R112). -/
def classifyUpdate (v : Half) (s : State) : State :=
  match s.cfg.policy with
  | .fixed => s
  | .adapt =>
    let s1 := if s.cls.hist = [] then countWarm s else s
    s1.withCls { s.cls with hist := pushSample (zext16 s.cfg.win) s.cls.hist v }
  | .cal => if s.cls.calValid then s else countWarm (raise .noCal s)
  | .reserved => s

/-- `ToneMatch(f, F)`: `|f − F| ≤ TONE_TOL` (R123). -/
def toneMatch (c : Cfg) (f F : Half) : Bool :=
  decide (((zext16 f : Int) - (zext16 F : Int)).natAbs ≤ zext16 c.toneTol)

/-- `ToneSymbol(f)`: the least `k` whose frequency matches, or none (R124). -/
def toneSymbol (c : Cfg) (f : Half) : Option (BitVec 2) :=
  [0#2, 1#2, 2#2, 3#2].find? (fun k => toneMatch c f (c.toneF k))

/-- The sample joins the calibration, which is complete at `CAL_LEN` samples (R118, R119). -/
def calibrate (v : Half) (s : State) : State :=
  let h := s.cls.hist ++ [v]
  if h.length = zext16 s.cfg.calLen then
    s.withCls { hist := h, calValid := true, calBase2 := BitVec.ofInt 17 (median2 h) }
  else s.withCls { s.cls with hist := h }

/-- `CALS`: R118's pseudocode whole, in every mode of `SYNC` and in every state, since the rule of a command is what
gives its next state (43_orchestrator.md R200). So a sample is collected in tone mode too, where 10_state.md R43's "neither
read nor written" is read of the records of a call (DEDUCED, log 14), and a glitch is counted in a terminal state too, as
10_state.md R39 says, where the last sentence of 42_reassembler.md R184 is read of the call's own commands (DEDUCED,
log 16). -/
def execCals (data : Half) (s : State) : Host.Outcome State Fault Refusal :=
  if s.call.fsm.running then .next (raise .seq s)
  else if s.cfg.policy ≠ .cal then .next (raise .seq s)
  else if glitch s.cfg data then .next (countGlitch s)
  else if s.cls.calValid then .next s
  else .next (calibrate data s)

end Sys2Proof.Machine
end

