-- ==== Sys2Proof/Machine/Reassembler.lean ====
section
/-! DEFINITION. The bit sink, the byte reassembler and the sync bookkeeping (spec 42_reassembler.md R181 to
R185): the internal operations that SAMPLE, SKIP, START and END run. -/

namespace Sys2Proof.Machine

/-- `Finalize(st)` (R184): the leftover bits are counted in `LEFT` and the call ends in `st`. -/
def finalize (st : Fsm) (s : State) : State :=
  s.withCall { s.call with left := s.call.bitn, fsm := st }

/-- `EnterPayload()` (R185). -/
def enterPayload (s : State) : State :=
  let s1 := s.withCall { s.call with fsm := .payload, syncPos := s.call.pos, syncBit := s.call.bitcnt }
  if s.cfg.sync ≠ .tone ∧ s.cfg.payloadLen = 0 then finalize .done s1 else s1

/-- The bit joins the byte being assembled; an eighth bit completes it (R181, R182). -/
def assembleBit (b : Bool) (s : State) : State :=
  if s.call.bitn.toNat + 1 = 8 then
    let s1 := storeByte (shiftIn s.call.acc b) s
    s1.withCall { s1.call with acc := 0, bitn := 0 }
  else
    s.withCall { s.call with acc := shiftIn s.call.acc b, bitn := s.call.bitn + 1 }

/-- Part 2 of `EmitBit` in `PAYLOAD` (R181): in pattern mode the call ends when `L` payload bits have come
(41_synchronizer.md R162). -/
def payloadBit (b : Bool) (s : State) : State :=
  let s1 := assembleBit b s
  if s.cfg.sync = .pat ∧ s.call.bitcnt.toNat = s.call.syncBit.toNat + s.cfg.payloadLen then
    finalize .done s1
  else s1

/-- `mask = 2^n - 1` with `n = PAT_LEN` (R181). -/
def patMask (c : Cfg) : BitVec 16 := BitVec.ofNat 16 (2 ^ zext16 c.patLen - 1)

/-- The last `PAT_LEN` bits are the pattern, and so many bits have come (41_synchronizer.md R160). -/
def patternMatch (s : State) : Bool :=
  decide (zext16 s.cfg.patLen ≤ s.call.bitcnt.toNat) &&
    decide (s.call.sr &&& patMask s.cfg = s.cfg.pat &&& patMask s.cfg)

/-- Part 2 of `EmitBit` in `SEARCH` (R181): the pattern matcher of 41_synchronizer.md R160. -/
def searchBit (b : Bool) (s : State) : State :=
  let s1 := s.withCall { s.call with sr := shiftIn s.call.sr b }
  if patternMatch s1 then enterPayload s1 else s1

/-- `EmitBit(b)` (R181); the consumer is chosen by the `FSM` at entry. -/
def emitBit (b : Bool) (s : State) : State :=
  match s.call.fsm with
  | .payload => payloadBit b (storeRawBit b s)
  | .search => searchBit b (storeRawBit b s)
  | _ => storeRawBit b s

end Sys2Proof.Machine
end

