-- ==== Sys2Proof/Machine/Synchronizer.lean ====
section
/-! DEFINITION. The synchronizer and the SAMPLE and SKIP commands (spec 41_synchronizer.md R140 to R171). -/

namespace Sys2Proof.Machine

/-- The presence test of R152: `WCNT > 0` and `WSUM > WCNT · MARK_THR`. -/
def present (s : State) : Bool :=
  decide (s.call.wcnt.toNat > 0) &&
    decide (s.call.wsum.toInt > (s.call.wcnt.toNat : Int) * sext16 s.cfg.markThr)

/-- `Decide()` (R152). -/
def decidePresence (s : State) : State :=
  if present s then enterPayload s else finalize .silence s

/-- The first test of `PosCheck` (R171): the whole preamble window has passed. -/
def windowCheck (s : State) : State :=
  if s.call.fsm = .search ∧ s.call.pos.toNat = s.cfg.payloadStart then decidePresence s else s

/-- The second test of `PosCheck` (R171): the whole payload window has passed (R154). -/
def payloadCheck (s : State) : State :=
  if s.call.fsm = .payload ∧ s.call.pos.toNat = s.cfg.payloadStart + s.cfg.payloadLen then
    finalize .done s
  else s

/-- `PosCheck()` (R171): positional mode only; the second test sees the `FSM` the first may have set. -/
def posCheck (s : State) : State :=
  if s.cfg.sync = .pos then payloadCheck (windowCheck s) else s

/-- `WSUM <- WSUM + v; WCNT <- WCNT + 1` (R151), at the widths of 10_state.md R24 (log 9). -/
def accumulate (v : Half) (s : State) : State :=
  s.withCall { s.call with
    wsum := BitVec.ofInt 32 (s.call.wsum.toInt + sext16 v)
    wcnt := BitVec.ofNat 16 (s.call.wcnt.toNat + 1) }

/-- The accumulation of R151: positional mode, `SEARCH`, and the record's index `p` in the preamble window. -/
def windowSample (p : Nat) (v : Half) (s : State) : State :=
  if s.cfg.sync = .pos ∧ s.call.fsm = .search ∧ s.cfg.inWindow p then accumulate v s else s

/-- The classified bit is emitted in pattern mode always, in positional mode in `PAYLOAD` alone (R145, R146);
`Classify` has its effect either way (40_classifier.md R110). -/
def classifyAndEmit (v : Half) (s : State) : State :=
  let s1 := classifyUpdate v s
  match classifyBit s.cfg s.cls v with
  | some b => if s.cfg.sync = .pat ∨ s.call.fsm = .payload then emitBit b s1 else s1
  | none => s1

/-- A running `SAMPLE` in a power mode, `POS` already advanced from `p` (R140). -/
def samplePower (p : Nat) (v : Half) (s : State) : State :=
  if glitch s.cfg v then posCheck (countGlitch s)
  else posCheck (classifyAndEmit v (windowSample p v s))

/-- A running `SAMPLE` in tone mode, `POS` already advanced (R140, R165 to R167). -/
def sampleTone (f : Half) (s : State) : State :=
  if s.call.fsm = .search then
    if toneMatch s.cfg f s.cfg.toneHs then enterPayload s else s
  else
    match toneSymbol s.cfg f with
    | none => countDrop s
    | some k => emitBit (k.getLsbD 0) (emitBit (k.getLsbD 1) s)

/-- A `SAMPLE` accepted while running (R140): `POS` advances before anything else (R142). -/
def sampleRunning (data : Half) (s : State) : State :=
  if s.cfg.sync = .tone then sampleTone data (advancePos s)
  else samplePower s.call.pos.toNat data (advancePos s)

/-- `SAMPLE` (R140), gated by the state of the call (R141). -/
def execSample (data : Half) (s : State) : Host.Outcome State Fault Refusal :=
  if s.call.fsm = .idle then .next (raise .seq s)
  else if s.call.fsm.terminal then .next s
  else .next (sampleRunning data s)

/-- `SKIP` (R170), gated as `SAMPLE` is (R141). -/
def execSkip (s : State) : Host.Outcome State Fault Refusal :=
  if s.call.fsm = .idle then .next (raise .seq s)
  else if s.call.fsm.terminal then .next s
  else .next (posCheck (countSkip (advancePos s)))

end Sys2Proof.Machine
end

