-- ==== Sys2Proof/Machine/Orchestrator.lean ====
section
/-! DEFINITION. The control commands of the decode call (spec 43_orchestrator.md R203 to R210), the illegal
command and the hardware reset. -/

namespace Sys2Proof.Machine

/-- `NOP` (R203). -/
def execNop (s : State) : Host.Outcome State Fault Refusal := .next s

/-- `SRST` (R204): indistinguishable from a hardware reset. -/
def execSrst (s : State) : Host.Outcome State Fault Refusal := .next (resetState s)

/-- The hardware reset (70_reset_and_hazards.md R280, R281). -/
def hardwareReset (s : State) : State := resetState s

/-- The state with the per-call state cleared and `FSM = SEARCH` (10_state.md R47). -/
def openCall (s : State) : State :=
  (s.withCall { Call.reset with fsm := .search }).withMem .reset

/-- What is already decided with zero records (R205). -/
def decideAtStart (s : State) : State :=
  if s.cfg.sync = .pos then posCheck s
  else if s.cfg.sync = .pat ∧ zext16 s.cfg.patLen = 0 then enterPayload s
  else s

/-- `START` (R205, R206). -/
def execStart (s : State) : Host.Outcome State Fault Refusal :=
  if s.call.fsm.running then .next (raise .seq s)
  else .next (decideAtStart (openCall s))

/-- `END` in `SEARCH` (R208). -/
def endSearch (s : State) : State :=
  if s.cfg.sync = .pat then finalize .unsynced (s.withCall { s.call with nopre := true })
  else finalize .silence s

/-- `END` in `PAYLOAD` (R208). -/
def endPayload (s : State) : State :=
  if s.cfg.sync ≠ .tone then finalize .done (s.withCall { s.call with short := true })
  else finalize .done s

/-- `END` (R208). -/
def execEnd (s : State) : Host.Outcome State Fault Refusal :=
  match s.call.fsm with
  | .idle => .next (raise .seq s)
  | .search => .next (endSearch s)
  | .payload => .next (endPayload s)
  | .silence => .next s
  | .done => .next s
  | .unsynced => .next s

/-- `CLRH` (R210). -/
def execClrh (s : State) : Host.Outcome State Fault Refusal :=
  if s.call.fsm.running then .next (raise .seq s) else .next (clearHistory s)

/-- A word that is no command (30_encoding.md R84): `raise ILL` and nothing else. -/
def illegalCommand (s : State) : State := raise .ill s

end Sys2Proof.Machine
end

