-- ==== Sys2Proof/Machine/Dispatch.lean ====
section
/-! DEFINITION. One arm per command (spec 43_orchestrator.md R200, 30_encoding.md R83). -/

namespace Sys2Proof.Machine

def exec (i : Instr) (s : State) : Host.Outcome State Fault Refusal :=
  match i with
  | .nop => Sys2Proof.Machine.execNop s
  | .srst => Sys2Proof.Machine.execSrst s
  | .wrreg reg data => Sys2Proof.Machine.execWrreg reg data s
  | .rdreg reg => Sys2Proof.Machine.execRdreg reg s
  | .start => Sys2Proof.Machine.execStart s
  | .sample data => Sys2Proof.Machine.execSample data s
  | .skip => Sys2Proof.Machine.execSkip s
  | .endCall => Sys2Proof.Machine.execEnd s
  | .cals data => Sys2Proof.Machine.execCals data s
  | .clrh => Sys2Proof.Machine.execClrh s
  | .rdmsg index => Sys2Proof.Machine.execRdmsg index s
  | .rdraw index => Sys2Proof.Machine.execRdraw index s

end Sys2Proof.Machine
end

