-- ==== Sys2Proof/Machine/Step.lean ====
section
/-! DEFINITION. The step function (spec 43_orchestrator.md R200): it takes the next event from the command
port and executes it to completion (20_memory.md R70). -/

namespace Sys2Proof.Machine

/-- One step. No event waiting: all state is held (60_exceptions.md R266, log 2). A hardware reset: the reset state
(70_reset_and_hazards.md R280). A command word: the command it decodes to, or the illegal command (R84). -/
def step (s : State) : Host.Outcome State Fault Refusal :=
  match s.port with
  | [] => .next s
  | .hardwareReset :: rest => .next (hardwareReset (s.withPort rest))
  | .command w :: rest =>
    match Sys2Proof.decode w with
    | .ok i => exec i (s.withPort rest)
    | .error _ => .next (illegalCommand (s.withPort rest))

/-- The word arrives on the command port as the next event: the next step executes it (log 1). -/
def State.withFetchWord (s : State) (nbits w : Nat) : State :=
  placeEvent (.command (Sys2Proof.tableWord nbits w)) s

end Sys2Proof.Machine
end

