-- ==== Sys2Proof/Machine/Channel.lean ====
section
/-! DEFINITION. What is on the channel that the block decodes: the symbol alphabets, the bitstream of a message
and the frame layouts (spec 30_encoding.md R96 to R104). The transmitter is out of scope (00_scope.md R8); these
are the frames the receive side is specified against. -/

namespace Sys2Proof.Machine

/-- The power alphabet (R96). -/
inductive PowerSymbol
  | baseline | marker | bit0 | bit1
  deriving DecidableEq, Repr

/-- The nominal levels of R96 in the unit of 00_scope.md R13 (1/16 dB): −90, −40, −70 and −50 dB. -/
def PowerSymbol.nominal : PowerSymbol → Half
  | .baseline => BitVec.ofInt 16 (-1440)
  | .marker => BitVec.ofInt 16 (-640)
  | .bit0 => BitVec.ofInt 16 (-1120)
  | .bit1 => BitVec.ofInt 16 (-800)

/-- The tone alphabet (R97): the handshake, and the data tones F00, F01, F10, F11 by symbol value (R98). -/
inductive ToneSym
  | handshake
  | data (k : BitVec 2)
  deriving DecidableEq, Repr

/-- The frequency that the tone table gives a symbol (R97, 10_state.md R33). -/
def ToneSym.frequency (c : Cfg) : ToneSym → Half
  | .handshake => c.toneHs
  | .data k => c.toneF k

/-- A byte, most significant bit first (R99). -/
def byteBits (b : Byte) : List Bool :=
  [b.getLsbD 7, b.getLsbD 6, b.getLsbD 5, b.getLsbD 4, b.getLsbD 3, b.getLsbD 2, b.getLsbD 1, b.getLsbD 0]

/-- The bitstream of a message (R99): 8 bits a byte, most significant first. -/
def bitstream (m : List Byte) : List Bool := m.flatMap byteBits

/-- The payload of a frame: the bitstream truncated to the capacity (R100). -/
def framePayload (capacity : Nat) (m : List Byte) : List Bool := (bitstream m).take capacity

/-- The symbol of a payload bit (R101). -/
def bitSymbol (b : Bool) : PowerSymbol := if b then .bit1 else .bit0

/-- A positional frame (R101): `lead` baseline symbols, `pre` markers, the payload, `pre` markers, `trail` baseline
symbols. -/
def positionalFrame (lead pre trail : Nat) (payload : List Bool) : List PowerSymbol :=
  List.replicate lead .baseline ++ List.replicate pre .marker ++ payload.map bitSymbol ++
    List.replicate pre .marker ++ List.replicate trail .baseline

/-- The 2-bit groups of a bitstream, the earlier bit the more significant (R98, R103). A left-over single bit has no
group: the spec does not say what a tone encoder does with it (R103), and a message has none (log 12). -/
def toneGroups : List Bool → List (BitVec 2)
  | x :: y :: rest => (BitVec.ofBool x ++ BitVec.ofBool y) :: toneGroups rest
  | _ => []

/-- A tone frame (R103): exactly one handshake tone, then one data tone for each 2-bit group. -/
def toneFrame (payload : List Bool) : List ToneSym := .handshake :: (toneGroups payload).map .data

/-- Pattern bit `i`, the first on the channel at `i = 0`: `PAT[PAT_LEN − 1 − i]` (10_state.md R32). -/
def patternBits (c : Cfg) : List Bool :=
  (List.range (zext16 c.patLen)).map fun i => c.pat.getLsbD (zext16 c.patLen - 1 - i)

/-- A pattern-search frame (R104): the pattern's bits, then the payload bits, each as BIT1 or BIT0. -/
def patternFrame (c : Cfg) (payload : List Bool) : List PowerSymbol :=
  (patternBits c ++ payload).map bitSymbol

end Sys2Proof.Machine
end

