-- ==== Sys2Proof/Safety.lean ====
section
/-! DEFINITION. The conditions that every reachable state meets, in the terms the statements use: what each
part of the state may hold (spec 10_state.md R24 to R44, 42_reassembler.md R187 to R189). Every one of them is
decidable. -/

namespace Sys2Proof.Machine

/-- The configuration registers hold legal values (10_state.md R25, R26; 44_register_access.md R234). -/
abbrev Cfg.Legal (p : Params) (c : Cfg) : Prop :=
  legalMode c.mode = true ∧
  (1 ≤ zext16 c.win ∧ zext16 c.win ≤ p.nmax) ∧
  (1 ≤ zext16 c.calLen ∧ zext16 c.calLen ≤ p.nmax) ∧
  zext16 c.patLen ≤ 16

/-- The instance is legal (00_scope.md R11) and so is its configuration. -/
abbrev ConfigOk (s : State) : Prop := s.params.Legal ∧ s.cfg.Legal s.params

/-- What the classifier's persistent state holds under each policy (10_state.md R43, R44; 40_classifier.md R118,
R119): nothing under FIXED, nothing in tone mode but what `CALS` collects under CAL (log 14), at most WIN samples under
ADAPT, and under CAL either fewer than CAL_LEN samples and no baseline, or CAL_LEN samples and twice their median. -/
abbrev HistoryOk (s : State) : Prop :=
  (s.cfg.policy = .fixed → s.cls = Classifier.reset) ∧
  (s.cfg.sync = .tone → s.cfg.policy ≠ .cal → s.cls = Classifier.reset) ∧
  (s.cfg.policy = .adapt →
    s.cls.hist.length ≤ zext16 s.cfg.win ∧ s.cls.calValid = false ∧ s.cls.calBase2 = 0) ∧
  (s.cfg.policy = .cal →
    (s.cls.calValid = true → s.cls.hist.length = zext16 s.cfg.calLen ∧
      s.cls.calBase2.toInt = median2 s.cls.hist) ∧
    (s.cls.calValid = false → s.cls.hist.length < zext16 s.cfg.calLen ∧ s.cls.calBase2 = 0))

/-- The buffers against the bit counter (10_state.md R38, 42_reassembler.md R181): `RAW_LEN = min(BITCNT, RAW_CAP)`,
`RAWOVF` exactly when a bit was lost, and `MSG` within its capacity. -/
abbrev BuffersOk (s : State) : Prop :=
  Memory.wf s.params s.mem ∧
  s.mem.raw.length = min s.call.bitcnt.toNat s.params.rawCap ∧
  s.call.rawovf = decide (s.params.rawCap < s.call.bitcnt.toNat)

/-- What each state of the decode call implies about the per-call state (10_state.md R35, R37, R48;
41_synchronizer.md R145, R162; 42_reassembler.md R184, R185, R187). -/
abbrev CallOk (s : State) : Prop :=
  (s.call.fsm = .idle →
    { s.call with glitchCnt := 0 } = Call.reset ∧ s.mem = Memory.reset) ∧
  (s.call.fsm = .search →
    s.mem.msg = [] ∧ s.call.msgovf = false ∧ s.call.acc = 0 ∧ s.call.bitn = 0 ∧ s.call.syncPos = 0 ∧
    s.call.syncBit = 0 ∧ (s.cfg.sync ≠ .pat → s.mem.raw = [] ∧ s.call.bitcnt = 0)) ∧
  (s.call.fsm = .payload →
    s.call.syncBit.toNat ≤ s.call.bitcnt.toNat ∧
    (s.cfg.sync ≠ .pat → s.call.syncBit = 0) ∧
    (s.cfg.sync = .pat → s.call.bitcnt.toNat < s.call.syncBit.toNat + s.cfg.payloadLen)) ∧
  (s.call.fsm = .silence → s.mem = Memory.reset ∧ s.call.bitcnt = 0 ∧ s.call.left = 0) ∧
  (s.call.fsm = .unsynced → s.mem.msg = [] ∧ s.call.left = 0) ∧
  s.call.nopre = decide (s.call.fsm = .unsynced) ∧
  (s.call.short = true → s.call.fsm = .done) ∧
  (s.call.fsm.running = true → s.call.left = 0) ∧
  (s.call.fsm.terminal = true → s.call.left = s.call.bitn)

/-- The presence accumulator and the record index while running (10_state.md R24, R40; 41_synchronizer.md R150 to
R154): in positional mode the sum is within the bounds of its count, the count within the records of the window
seen so far, and the record index within the window that the state stands for; in the other modes both are 0. -/
abbrev WindowOk (s : State) : Prop :=
  s.call.fsm.running = true →
    (s.cfg.sync = .pos →
      s.call.wcnt.toNat ≤ s.call.pos.toNat - zext16 s.cfg.preStart ∧
      s.call.wcnt.toNat ≤ zext16 s.cfg.preLen ∧
      -32768 * (s.call.wcnt.toNat : Int) ≤ s.call.wsum.toInt ∧
      s.call.wsum.toInt ≤ 32767 * (s.call.wcnt.toNat : Int) ∧
      (s.call.fsm = .search → s.call.pos.toNat < s.cfg.payloadStart) ∧
      (s.call.fsm = .payload → s.cfg.payloadStart ≤ s.call.pos.toNat ∧
        s.call.pos.toNat < s.cfg.payloadStart + s.cfg.payloadLen)) ∧
    (s.cfg.sync ≠ .pos → s.call.wsum = 0 ∧ s.call.wcnt = 0)

/-- The state is in, or has finished, the payload of a call that synced. -/
abbrev Synced (s : State) : Prop := s.call.fsm = .payload ∨ s.call.fsm = .done

/-- The number of payload bits so far, `BITCNT − SYNC_BIT` (10_state.md R37). -/
def State.payloadBits (s : State) : Nat := s.call.bitcnt.toNat - s.call.syncBit.toNat

/-- The reassembler against the payload bits that came, as long as `BITCNT` has not saturated (42_reassembler.md R183,
R184, R189): a byte for every eight bits as far as `MSG` has room, the rest of the division in `BITN`. -/
abbrev PayloadOk (s : State) : Prop :=
  Synced s → s.call.bitcnt.toNat < 0xFFFFFFFF →
    s.call.syncBit.toNat ≤ s.call.bitcnt.toNat ∧
    s.mem.msg.length = min (s.payloadBits / 8) s.params.msgCap ∧
    s.call.bitn.toNat = s.payloadBits % 8 ∧
    s.call.msgovf = decide (s.params.msgCap < s.payloadBits / 8)

/-- The bits of the byte being assembled, the earliest first (10_state.md R42). -/
def Call.accBits (c : Call) : List Bool :=
  (List.range c.bitn.toNat).map fun j => c.acc.getLsbD (c.bitn.toNat - 1 - j)

/-- The message is the raw bits regrouped, as long as `BITCNT` has not saturated (20_memory.md R61, R62;
42_reassembler.md R182; 60_exceptions.md R265): byte `i` of `MSG` is the eight bits of `RAW` from `SYNC_BIT + 8·i` on,
most significant first, and the byte being assembled is the last `BITN` bits, wherever `RAW` holds them. -/
abbrev MessageOk (s : State) : Prop :=
  Synced s → s.call.bitcnt.toNat < 0xFFFFFFFF →
    (∀ i < s.mem.msg.length, s.call.syncBit.toNat + 8 * i + 8 ≤ s.mem.raw.length →
      byteBits (s.mem.msg.getD i 0) = (s.mem.raw.drop (s.call.syncBit.toNat + 8 * i)).take 8) ∧
    (s.call.bitcnt.toNat ≤ s.params.rawCap →
      s.call.accBits = s.mem.raw.drop (s.mem.raw.length - s.call.bitn.toNat))

/-- The matcher's shift register holds the last bits of `RAW`, newest in bit 0, as long as `RAW` holds them
(10_state.md R42, 60_exceptions.md R265). -/
abbrev ShiftOk (s : State) : Prop :=
  s.call.fsm = .search → s.cfg.sync = .pat → s.call.bitcnt.toNat ≤ s.params.rawCap →
    ∀ j < 16, s.call.sr.getLsbD j = s.mem.raw.reverse.getD j false

/-- The payload bits that the reassembler holds, in order: those of the stored bytes, then those of the byte being
assembled (42_reassembler.md R182). -/
def State.assembled (s : State) : List Bool := s.mem.msg.flatMap byteBits ++ s.call.accBits

/-- A power sample that reaches the classifier (40_classifier.md R110, R111): running, not in tone mode, no glitch. -/
abbrev Classified (d : Half) (s : State) : Prop :=
  s.call.fsm.running = true ∧ s.cfg.sync ≠ .tone ∧ sext16 s.cfg.glitch ≤ sext16 d

/-- The distance of two frequencies (40_classifier.md R123). -/
def toneDistance (f g : Half) : Nat := ((zext16 f : Int) - (zext16 g : Int)).natAbs

/-- All of it together. -/
abbrev Inv (s : State) : Prop :=
  ConfigOk s ∧ HistoryOk s ∧ BuffersOk s ∧ CallOk s ∧ WindowOk s ∧ PayloadOk s ∧ MessageOk s ∧ ShiftOk s

end Sys2Proof.Machine
end

