-- ==== Sys2Proof/Certificates/Slice0/Obligations.lean ====
section
/-! DEFINITION. The statements for the provers, one definition each, from the numbered rules of spec/. -/

open Sys2Proof Sys2Proof.Machine

/-! Encoding. -/

/-- 30_encoding.md R80 to R83: decoding the word of a well-formed command gives the command back, for every command
and every operand. -/
def Obligations.DecodeInvertsEncode : Prop :=
  ∀ i : Instr, i.wellFormed = true → decode (encode i) = .ok i

/-- 30_encoding.md R81, R83: a decoded command is well formed, and its word is the given one with the bits that its
format does not use cleared: no used bit is dropped and none is invented. -/
def Obligations.EncodeKeepsUsedBits : Prop :=
  ∀ (w : Word) (i : Instr), decode w = .ok i → i.wellFormed = true ∧ encode i = w &&& i.formatMask

/-- 30_encoding.md R85: two words that agree on the bits of a command's format are the same command, and a step on
either ends in the same state. -/
def Obligations.UnusedBitsIgnored : Prop :=
  ∀ (w w' : Word) (i : Instr), decode w = .ok i → w' &&& i.formatMask = w &&& i.formatMask →
    decode w' = .ok i ∧
    ∀ (s : State) (rest : List PortEvent),
      step (s.withPort (.command w' :: rest)) = step (s.withPort (.command w :: rest))

/-- 30_encoding.md R84: opcodes 0xC to 0xF are exactly the words that are no command, and executing one sets
`ERR.ILL`, answers nothing and leaves everything else, the following commands too, as it was. -/
def Obligations.IllegalOpcodeRaisesIll : Prop :=
  (∀ w : Word, 0xC ≤ (opField w).toNat ∧ decode w = .error (.illegalOpcode (opField w)) ∨
    (opField w).toNat < 0xC ∧ ∃ i, decode w = .ok i ∧ i.wellFormed = true) ∧
  ∀ (s : State) (w : Word) (rest : List PortEvent), 0xC ≤ (opField w).toNat →
    step { s with port := .command w :: rest } = .next { s with port := rest, err := s.err ||| 0x01 }

/-- Words of 95_test_vectors.md B1, and one of B2 (0x300D0000, the read of an unimplemented number), decode to the
commands listed there. -/
def Obligations.ListedWordsDecode : Prop :=
  decode 0x0ABCDEF0 = .ok .nop ∧
  decode 0x2F02001E = .ok (.wrreg (.cfg .preLen) 30) ∧
  decode 0x3040FFFF = .ok (.rdreg (.stat .status)) ∧
  decode 0x300D0000 = .ok (.rdreg (.unimplemented 0x0D)) ∧
  decode 0x50FFFA60 = .ok (.sample 0xFA60) ∧
  decode 0x8000FA56 = .ok (.cals 0xFA56) ∧
  decode 0x70000000 = .ok .endCall ∧
  decode 0xA0000001 = .ok (.rdmsg 1) ∧
  decode 0xF1234567 = .error (.illegalOpcode 0xF)

/-! The step. -/

/-- 43_orchestrator.md R200, 20_memory.md R70: when the next word on the port decodes to a command, the step is that
command, executed on the state with the word taken from the port. -/
def Obligations.StepRunsDecodedCommand : Prop :=
  ∀ (s : State) (w : Word) (rest : List PortEvent) (i : Instr),
    s.port = .command w :: rest → decode w = .ok i → step s = exec i { s with port := rest }

/-- 60_exceptions.md R250, R255: from every state a step, and every command, ends in a next state. -/
def Obligations.EveryStepCompletes : Prop :=
  (∀ s : State, ∃ t, step s = .next t) ∧ ∀ (i : Instr) (s : State), ∃ t, exec i s = .next t

/-! The control commands. -/

/-- 43_orchestrator.md R203: every word with op 0 is `NOP`, and it changes nothing. -/
def Obligations.NopChangesNothing : Prop :=
  (∀ w : Word, opField w = 0 → decode w = .ok .nop) ∧ ∀ s : State, exec .nop s = .next s

/-- 10_state.md R48: after `SRST`, and after a hardware reset, every element of the state has the value of the table, and
the outputs are 0; so it is in the reset state of every instance. -/
def Obligations.ResetValues : Prop :=
  ∀ t : State,
    ((∃ s, exec .srst s = .next t) ∨ (∃ s rest, s.port = .hardwareReset :: rest ∧ step s = .next t) ∨
      ∃ p, t = State.resetWith p) →
    t.cfg =
      { mode := 0, preStart := 0, preLen := 0, capBits := 0, payLen := 0, clsThr := 0, markThr := 0
        glitch := 0x8000, win := 1, calLen := 1, deltaThr := 0, pat := 0, patLen := 0, toneHs := 0
        toneF0 := 0, toneF1 := 0, toneF2 := 0, toneF3 := 0, toneTol := 0 } ∧
    t.call =
      { fsm := .idle, pos := 0, wsum := 0, wcnt := 0, sr := 0, bitcnt := 0, acc := 0, bitn := 0
        syncPos := 0, syncBit := 0, nopre := false, short := false, rawovf := false, msgovf := false
        left := 0, glitchCnt := 0, skipCnt := 0, dropCnt := 0, warmCnt := 0 } ∧
    t.cls = { hist := [], calValid := false, calBase2 := 0 } ∧
    t.err = 0 ∧
    t.mem = { msg := [], raw := [] } ∧
    t.doneLevel = false ∧ t.errLevel = false

/-- 43_orchestrator.md R204, 70_reset_and_hazards.md R280: `SRST` puts every element at its reset value in every state,
the running ones too, and so does a hardware reset. The model's choice (log 3, log 4, log 5): the sizes of the instance,
the commands still to come and the responses already given are no element of the state that a reset clears. -/
def Obligations.SrstGivesResetState : Prop :=
  (∀ s : State, exec .srst s =
    .next { State.resetWith s.params with port := s.port, responses := s.responses }) ∧
  ∀ (s : State) (rest : List PortEvent),
    s.port = .hardwareReset :: rest → step s = exec .srst { s with port := rest }

/-- 43_orchestrator.md R205: a `START` that is not refused clears the per-call state and nothing else, and ends in
`SILENCE` if positional mode has an empty window at index 0, past the sync if pattern mode has the empty pattern
(`DONE` if there is no payload either), and in `SEARCH` otherwise. -/
def Obligations.StartOpensCall : Prop :=
  ∀ s : State,
    (s.call.fsm.running = true → exec .start s = .next { s with err := s.err ||| 0x04 }) ∧
    (s.call.fsm.running = false →
      exec .start s = .next { s with
        call := { Call.reset with
          fsm :=
            if s.cfg.sync = .pos ∧ s.cfg.preStart = 0 ∧ s.cfg.preLen = 0 then .silence
            else if s.cfg.sync = .pat ∧ s.cfg.patLen = 0 then
              (if s.cfg.payLen = 0 ∨ s.cfg.capBits = 0 then .done else .payload)
            else .search }
        mem := { msg := [], raw := [] } })

/-- 43_orchestrator.md R208: `END` in each state and mode. -/
def Obligations.EndClosesCall : Prop :=
  ∀ s : State,
    (s.call.fsm = .idle → exec .endCall s = .next { s with err := s.err ||| 0x04 }) ∧
    (s.call.fsm = .search → s.cfg.sync = .pat →
      exec .endCall s = .next { s with
        call := { s.call with nopre := true, left := s.call.bitn, fsm := .unsynced } }) ∧
    (s.call.fsm = .search → s.cfg.sync ≠ .pat →
      exec .endCall s = .next { s with call := { s.call with left := s.call.bitn, fsm := .silence } }) ∧
    (s.call.fsm = .payload → s.cfg.sync ≠ .tone →
      exec .endCall s = .next { s with
        call := { s.call with short := true, left := s.call.bitn, fsm := .done } }) ∧
    (s.call.fsm = .payload → s.cfg.sync = .tone →
      exec .endCall s = .next { s with call := { s.call with left := s.call.bitn, fsm := .done } }) ∧
    (s.call.fsm.terminal = true → exec .endCall s = .next s)

/-- 43_orchestrator.md R210: `CLRH` empties the history and the calibration, and is refused while running. -/
def Obligations.ClrhClearsHistory : Prop :=
  ∀ s : State,
    (s.call.fsm.running = true → exec .clrh s = .next { s with err := s.err ||| 0x04 }) ∧
    (s.call.fsm.running = false →
      exec .clrh s = .next { s with cls := { hist := [], calValid := false, calBase2 := 0 } })

/-! Register and buffer access. -/

/-- 44_register_access.md R231 to R234: the three checks in their order, each refusal changing `ERR` alone; an accepted
write changes that register alone, and for MODE, WIN and CAL_LEN empties the history. -/
def Obligations.WrregWritesOrRefuses : Prop :=
  ∀ (s : State) (reg : Reg) (d : Half),
    (s.call.fsm.running = true →
      exec (.wrreg reg d) s = .next { s with err := s.err ||| 0x08 }) ∧
    (s.call.fsm.running = false → (∀ r, reg ≠ .cfg r) →
      exec (.wrreg reg d) s = .next { s with err := s.err ||| 0x02 }) ∧
    ∀ r, reg = .cfg r → s.call.fsm.running = false →
      (¬ ((r = .mode → d &&& 0xFECC = 0 ∧ d.extractLsb' 0 2 ≠ 3 ∧ d.extractLsb' 4 2 ≠ 3) ∧
          (r = .win ∨ r = .calLen → 1 ≤ d.toNat ∧ d.toNat ≤ s.params.nmax) ∧
          (r = .patLen → d.toNat ≤ 16)) →
        exec (.wrreg reg d) s = .next { s with err := s.err ||| 0x10 }) ∧
      ((r = .mode → d &&& 0xFECC = 0 ∧ d.extractLsb' 0 2 ≠ 3 ∧ d.extractLsb' 4 2 ≠ 3) →
        (r = .win ∨ r = .calLen → 1 ≤ d.toNat ∧ d.toNat ≤ s.params.nmax) →
        (r = .patLen → d.toNat ≤ 16) →
        ∃ c : Cfg,
          exec (.wrreg reg d) s = .next { s with
            cfg := c
            cls := if r = .mode ∨ r = .win ∨ r = .calLen then { hist := [], calValid := false, calBase2 := 0 }
              else s.cls } ∧
          c.read r = d ∧ ∀ r', r' ≠ r → c.read r' = s.cfg.read r')

/-- 44_register_access.md R234, second paragraph: the legal values of MODE are the eighteen words listed there. -/
def Obligations.LegalModeWords : Prop :=
  ∀ d : Half, legalMode d = true ↔
    ∃ base ∈ [0x0000#16, 0x0100#16], ∃ sync ∈ [0#16, 1#16, 2#16], ∃ cls ∈ [0x00#16, 0x10#16, 0x20#16],
      d = base + sync + cls

/-- 44_register_access.md R236, R237: a read of a register answers one word and changes nothing else; a configuration
register answers its 16 bits zero-extended; each status register its value at its width, CAL_BASE2 sign-extended;
an unimplemented number answers 0 and raises `ADDR`. -/
def Obligations.RdregResponds : Prop :=
  ∀ s : State,
    (∀ r : CfgReg, exec (.rdreg (.cfg r)) s =
      .next { s with responses := s.responses ++ [(s.cfg.read r).setWidth 32] }) ∧
    (∀ n : RegNumber, exec (.rdreg (.unimplemented n)) s =
      .next { s with responses := s.responses ++ [0], err := s.err ||| 0x02 }) ∧
    ∀ r v, (r, v) ∈
        [(StatReg.status, statusWord s.call s.cls.calValid), (.err, s.err.setWidth 32), (.pos, s.call.pos),
         (.msgLen, BitVec.ofNat 32 s.mem.msg.length), (.rawLen, BitVec.ofNat 32 s.mem.raw.length),
         (.syncPos, s.call.syncPos), (.syncBit, s.call.syncBit), (.bitcnt, s.call.bitcnt),
         (.glitchCnt, s.call.glitchCnt.setWidth 32), (.skipCnt, s.call.skipCnt.setWidth 32),
         (.dropCnt, s.call.dropCnt.setWidth 32), (.warmCnt, s.call.warmCnt.setWidth 32),
         (.histLen, BitVec.ofNat 32 s.cls.hist.length), (.calBase2, BitVec.ofInt 32 s.cls.calBase2.toInt),
         (.wsum, s.call.wsum), (.wcnt, s.call.wcnt.setWidth 32), (.pNmax, BitVec.ofNat 32 s.params.nmax),
         (.pRawCap, BitVec.ofNat 32 s.params.rawCap), (.pMsgCap, BitVec.ofNat 32 s.params.msgCap)] →
      exec (.rdreg (.stat r)) s = .next { s with responses := s.responses ++ [v] }

/-- 10_state.md R35: the fields of STATUS, bit by bit (the codes of its FSM field are those of `OutputLevels`). -/
def Obligations.StatusWordFields : Prop :=
  ∀ (c : Call) (calValid : Bool),
    (statusWord c calValid).extractLsb' 0 3 = c.fsm.code ∧
    (statusWord c calValid).getLsbD 3 = false ∧
    (statusWord c calValid).getLsbD 4 = c.nopre ∧
    (statusWord c calValid).getLsbD 5 = c.short ∧
    (statusWord c calValid).getLsbD 6 = c.rawovf ∧
    (statusWord c calValid).getLsbD 7 = c.msgovf ∧
    (statusWord c calValid).getLsbD 8 = calValid ∧
    (statusWord c calValid).extractLsb' 9 3 = c.left ∧
    (statusWord c calValid).extractLsb' 12 20 = 0

/-- 44_register_access.md R240: a byte below `MSG_LEN` is answered zero-extended; at and beyond it the answer is 0 with
`RANGE`; nothing else changes. -/
def Obligations.RdmsgResponds : Prop :=
  ∀ (s : State) (i : Half),
    (∀ h : i.toNat < s.mem.msg.length,
      exec (.rdmsg i) s = .next { s with responses := s.responses ++ [(s.mem.msg[i.toNat]).setWidth 32] }) ∧
    (s.mem.msg.length ≤ i.toNat →
      exec (.rdmsg i) s = .next { s with responses := s.responses ++ [0], err := s.err ||| 0x40 })

/-- 44_register_access.md R242: a word that holds a stored bit is answered with the earliest bit highest and zeros
after the last; beyond the last word the answer is 0 with `RANGE`; nothing else changes. -/
def Obligations.RdrawResponds : Prop :=
  ∀ (s : State) (w : Half),
    (32 * w.toNat < s.mem.raw.length →
      ∃ x : Word, exec (.rdraw w) s = .next { s with responses := s.responses ++ [x] } ∧
        ∀ k < 32, x.getLsbD (31 - k) =
          if h : 32 * w.toNat + k < s.mem.raw.length then s.mem.raw[32 * w.toNat + k] else false) ∧
    (s.mem.raw.length ≤ 32 * w.toNat →
      exec (.rdraw w) s = .next { s with responses := s.responses ++ [0], err := s.err ||| 0x40 })

/-- 20_memory.md R71: every `RDREG`, `RDMSG` and `RDRAW` gives exactly one response, after the earlier ones, and no other
command gives any. -/
def Obligations.OneResponsePerRead : Prop :=
  ∀ (i : Instr) (s t : State), exec i s = .next t →
    ((∃ reg, i = .rdreg reg) ∨ (∃ x, i = .rdmsg x) ∨ (∃ x, i = .rdraw x) →
      ∃ v, t.responses = s.responses ++ [v]) ∧
    ((∀ reg, i ≠ .rdreg reg) → (∀ x, i ≠ .rdmsg x) → (∀ x, i ≠ .rdraw x) →
      t.responses = s.responses)

/-! The classifier. -/

/-- 40_classifier.md R118, R119: `CALS` in every case; the doubled median fits its 17-bit register, so the value held is
the median exactly. In two cases it is the model's reading, by 43_orchestrator.md R200, where another rule can be read
against the pseudocode: a sample is collected in tone mode too (10_state.md R43, log 14), and a glitch is counted in a
terminal state too (42_reassembler.md R184, log 16). -/
def Obligations.CalsCalibrates : Prop :=
  ∀ (s : State) (d : Half),
    (s.call.fsm.running = true ∨ s.cfg.policy ≠ .cal →
      exec (.cals d) s = .next { s with err := s.err ||| 0x04 }) ∧
    (s.call.fsm.running = false → s.cfg.policy = .cal →
      (d.toInt < s.cfg.glitch.toInt →
        exec (.cals d) s = .next { s with
          call := { s.call with glitchCnt := BitVec.ofNat 16 (min (s.call.glitchCnt.toNat + 1) 0xFFFF) } }) ∧
      (s.cfg.glitch.toInt ≤ d.toInt → s.cls.calValid = true → exec (.cals d) s = .next s) ∧
      (s.cfg.glitch.toInt ≤ d.toInt → s.cls.calValid = false →
        (s.cls.hist.length + 1 ≠ s.cfg.calLen.toNat →
          exec (.cals d) s = .next { s with cls := { s.cls with hist := s.cls.hist ++ [d] } }) ∧
        (s.cls.hist.length + 1 = s.cfg.calLen.toNat →
          ∃ base2 : BitVec 17, base2.toInt = median2 (s.cls.hist ++ [d]) ∧
            exec (.cals d) s =
              .next { s with cls := { hist := s.cls.hist ++ [d], calValid := true, calBase2 := base2 } })))

/-- 40_classifier.md R115: the doubled median of a list, by any ascending arrangement of its samples. -/
def Obligations.MedianOfSortedSamples : Prop :=
  ∀ (hist : List Half) (srt : List Int), srt.Perm (hist.map BitVec.toInt) → srt.Pairwise (· ≤ ·) →
    (∀ k, hist.length = 2 * k + 1 → median2 hist = 2 * srt.getD k 0) ∧
    (∀ k, hist.length = 2 * k + 2 → median2 hist = srt.getD k 0 + srt.getD (k + 1) 0)

/-- 40_classifier.md R112: the fixed threshold is strict, never undecided, and touches no state. -/
def Obligations.FixedThresholdIsStrict : Prop :=
  ∀ (s : State) (v : Half), s.cfg.policy = .fixed →
    (s.cfg.clsThr.toInt < v.toInt → classifyBit s.cfg s.cls v = some true) ∧
    (v.toInt ≤ s.cfg.clsThr.toInt → classifyBit s.cfg s.cls v = some false) ∧
    classifyUpdate v s = s

/-- 40_classifier.md R113, R114, R115, R120, R125: the cross-multiplied integer tests decide exactly the real-number
inequality (value − baseline) ≥ DELTA_THR, with the mean, the median and the calibrated baseline. -/
def Obligations.BaselineTestsAreExact : Prop :=
  ∀ (c : Cfg) (k : Classifier) (v : Half),
    (c.policy = .adapt → c.baseMedian = false → k.hist ≠ [] →
      ∃ b, classifyBit c k v = some b ∧
        (b = true ↔ (c.deltaThr.toInt : ℚ) ≤
          (v.toInt : ℚ) - ((k.hist.map BitVec.toInt).sum : ℚ) / (k.hist.length : ℚ))) ∧
    (c.policy = .adapt → c.baseMedian = true → k.hist ≠ [] →
      ∃ b, classifyBit c k v = some b ∧
        (b = true ↔ (c.deltaThr.toInt : ℚ) ≤ (v.toInt : ℚ) - (median2 k.hist : ℚ) / 2)) ∧
    (c.policy = .cal → k.calValid = true →
      ∃ b, classifyBit c k v = some b ∧
        (b = true ↔ (c.deltaThr.toInt : ℚ) ≤ (v.toInt : ℚ) - (k.calBase2.toInt : ℚ) / 2))

/-- 40_classifier.md R116, R117: under ADAPT the sample joins the history as its newest element, the oldest leaving when
the window is exceeded; an empty history gives no bit and is counted. That the bit comes from the history before the
push is in `PositionalPayloadEmits` and `PatternModeEmitsEveryBit`. -/
def Obligations.AdaptPushesAndEvicts : Prop :=
  ∀ (s : State) (v : Half), s.cfg.policy = .adapt →
    (s.cls.hist = [] →
      classifyBit s.cfg s.cls v = none ∧
      (1 ≤ s.cfg.win.toNat →
        classifyUpdate v s = { s with
          call := { s.call with warmCnt := BitVec.ofNat 16 (min (s.call.warmCnt.toNat + 1) 0xFFFF) }
          cls := { s.cls with hist := [v] } })) ∧
    (∀ x rest, s.cls.hist = x :: rest → s.cls.hist.length < s.cfg.win.toNat →
      classifyUpdate v s = { s with cls := { s.cls with hist := x :: (rest ++ [v]) } }) ∧
    (∀ x rest, s.cls.hist = x :: rest → s.cfg.win.toNat ≤ s.cls.hist.length →
      classifyUpdate v s = { s with cls := { s.cls with hist := rest ++ [v] } })

/-- 40_classifier.md R120, R121: under CAL a sample before the baseline is fixed gives no bit, sets NOCAL and is counted;
afterwards classification touches no state. -/
def Obligations.UncalibratedGivesNoBit : Prop :=
  ∀ (s : State) (v : Half), s.cfg.policy = .cal →
    (s.cls.calValid = false →
      classifyBit s.cfg s.cls v = none ∧
      classifyUpdate v s = { s with
        err := s.err ||| 0x20
        call := { s.call with warmCnt := BitVec.ofNat 16 (min (s.call.warmCnt.toNat + 1) 0xFFFF) } }) ∧
    (s.cls.calValid = true → classifyUpdate v s = s)

/-- 40_classifier.md R126: with a history of equal values, an equal sample reads 0 exactly when DELTA_THR is positive,
for the mean and the median alike. -/
def Obligations.ConstantStreamReadsZero : Prop :=
  ∀ (c : Cfg) (k : Classifier) (n : Nat) (v : Half),
    c.policy = .adapt → k.hist = List.replicate (n + 1) v →
      classifyBit c k v = some (decide (c.deltaThr.toInt ≤ 0))

/-- 40_classifier.md R123, R124: the tone symbol is the least one within the tolerance, boundary included; it is the only
one when the tones are further apart than twice the tolerance. -/
def Obligations.ToneSymbolIsLeastMatch : Prop :=
  ∀ (c : Cfg) (f : Half),
    (∀ k, toneSymbol c f = some k ↔
      toneDistance f (c.toneF k) ≤ c.toneTol.toNat ∧
        ∀ j, j < k → c.toneTol.toNat < toneDistance f (c.toneF j)) ∧
    (toneSymbol c f = none ↔ ∀ k, c.toneTol.toNat < toneDistance f (c.toneF k)) ∧
    ((∀ j k, j ≠ k → 2 * c.toneTol.toNat < toneDistance (c.toneF j) (c.toneF k)) →
      ∀ k, toneDistance f (c.toneF k) ≤ c.toneTol.toNat → toneSymbol c f = some k)

/-! The reassembler. -/

/-- 42_reassembler.md R185: the sync bookkeeping, and the end of a call that has no payload to read. -/
def Obligations.EnterPayloadRecordsSync : Prop :=
  ∀ s : State,
    (s.cfg.sync ≠ .tone → (s.cfg.payLen = 0 ∨ s.cfg.capBits = 0) →
      enterPayload s = { s with
        call := { s.call with
          syncPos := s.call.pos, syncBit := s.call.bitcnt, left := s.call.bitn, fsm := .done } }) ∧
    ((s.cfg.sync = .tone ∨ (s.cfg.payLen ≠ 0 ∧ s.cfg.capBits ≠ 0)) →
      enterPayload s = { s with
        call := { s.call with syncPos := s.call.pos, syncBit := s.call.bitcnt, fsm := .payload } })

/-- 42_reassembler.md R181 to R183 in `PAYLOAD`: the bit goes to `RAW` if there is room and is counted either way; it is
shifted into ACC at bit 0 whatever the room; an eighth bit completes the byte, which goes to `MSG` or, where that is
full, is lost with MSGOVF, and clears ACC and BITN; while `MSG` has room the reassembler's bits grow by the bit; the
call ends exactly when pattern mode has its `L` payload bits; nothing else changes. -/
def Obligations.EmitBitInPayload : Prop :=
  ∀ (s : State) (b : Bool), s.call.fsm = .payload →
    ∃ (acc : BitVec 8) (bitn : BitVec 3),
      acc = BitVec.ofNat 8 ((2 * s.call.acc.toNat + b.toNat) % 0x100) ∧
      bitn.toNat = (s.call.bitn.toNat + 1) % 8 ∧
      emitBit b s = { s with
        mem :=
          { msg := if s.call.bitn = 7 ∧ s.mem.msg.length < s.params.msgCap then s.mem.msg ++ [acc] else s.mem.msg
            raw := if s.mem.raw.length < s.params.rawCap then s.mem.raw ++ [b] else s.mem.raw }
        call := { s.call with
          bitcnt := BitVec.ofNat 32 (min (s.call.bitcnt.toNat + 1) 0xFFFFFFFF)
          rawovf := s.call.rawovf || decide (s.params.rawCap ≤ s.mem.raw.length)
          acc := if s.call.bitn = 7 then 0 else acc
          bitn := bitn
          msgovf := s.call.msgovf || decide (s.call.bitn = 7 ∧ s.params.msgCap ≤ s.mem.msg.length)
          fsm :=
            if s.cfg.sync = .pat ∧ min (s.call.bitcnt.toNat + 1) 0xFFFFFFFF =
                s.call.syncBit.toNat + min s.cfg.payLen.toNat s.cfg.capBits.toNat then .done
            else .payload
          left :=
            if s.cfg.sync = .pat ∧ min (s.call.bitcnt.toNat + 1) 0xFFFFFFFF =
                s.call.syncBit.toNat + min s.cfg.payLen.toNat s.cfg.capBits.toNat then bitn
            else s.call.left } } ∧
      (s.mem.msg.length < s.params.msgCap → (emitBit b s).assembled = s.assembled ++ [b])

/-- 42_reassembler.md R181 in `SEARCH`, 41_synchronizer.md R160: the bit is stored if there is room and counted either
way, and shifted into the matcher; when so many bits have come and the matcher agrees with PAT on its low `PAT_LEN`
bits, the payload is entered, whether or not `RAW` has room; nothing else changes. -/
def Obligations.EmitBitInSearch : Prop :=
  ∀ (s : State) (b : Bool), s.call.fsm = .search →
    ∃ u : State,
      u = { s with
        mem := { s.mem with
          raw := if s.mem.raw.length < s.params.rawCap then s.mem.raw ++ [b] else s.mem.raw }
        call := { s.call with
          bitcnt := BitVec.ofNat 32 (min (s.call.bitcnt.toNat + 1) 0xFFFFFFFF)
          rawovf := s.call.rawovf || decide (s.params.rawCap ≤ s.mem.raw.length)
          sr := BitVec.ofNat 16 ((2 * s.call.sr.toNat + b.toNat) % 0x10000) } } ∧
      (s.cfg.patLen.toNat ≤ u.call.bitcnt.toNat →
        (∀ j < s.cfg.patLen.toNat, u.call.sr.getLsbD j = s.cfg.pat.getLsbD j) → emitBit b s = enterPayload u) ∧
      (u.call.bitcnt.toNat < s.cfg.patLen.toNat ∨
        (∃ j < s.cfg.patLen.toNat, u.call.sr.getLsbD j ≠ s.cfg.pat.getLsbD j) → emitBit b s = u)

/-- 41_synchronizer.md R160, R161: while the shift register holds the last bits of `RAW` and `RAW` holds every bit, the
matcher fires exactly when the stored bits end in the pattern, its first bit the most significant of `PAT_LEN`. -/
def Obligations.PatternMatchIsSuffixMatch : Prop :=
  ∀ s : State, s.cfg.patLen.toNat ≤ 16 → s.mem.raw.length = s.call.bitcnt.toNat →
    (∀ j < 16, s.call.sr.getLsbD j = s.mem.raw.reverse.getD j false) →
      (patternMatch s = true ↔
        ((List.range s.cfg.patLen.toNat).map fun i => s.cfg.pat.getLsbD (s.cfg.patLen.toNat - 1 - i)) <:+
          s.mem.raw)

/-- 42_reassembler.md R188: emitting exactly the bitstream of a message of `n ≥ 1` bytes, in pattern mode with `L = 8·n`,
ends the call in `DONE` with the message in `MSG` and no bits left over. -/
def Obligations.ReassemblyInvertsBitstream : Prop :=
  ∀ (s : State) (m : List Byte), m ≠ [] → m.length ≤ s.params.msgCap →
    s.call.fsm = .payload → s.cfg.sync = .pat → s.mem.msg = [] → s.call.bitn = 0 →
    s.call.bitcnt = s.call.syncBit → s.call.bitcnt.toNat + 8 * m.length ≤ 0xFFFFFFFF →
    min s.cfg.payLen.toNat s.cfg.capBits.toNat = 8 * m.length →
      ∃ t, (bitstream m).foldl (fun u b => emitBit b u) s = t ∧
        t.call.fsm = .done ∧ t.mem.msg = m ∧ t.call.left = 0 ∧ t.call.msgovf = s.call.msgovf

/-! The synchronizer. -/

/-- 41_synchronizer.md R152: the presence test is the comparison of the exact average with MARK_THR, strict, and an empty
window is silence. -/
def Obligations.PresenceTestIsTheAverage : Prop :=
  ∀ s : State, present s = true ↔
    s.call.wcnt ≠ 0 ∧ (s.cfg.markThr.toInt : ℚ) < (s.call.wsum.toInt : ℚ) / (s.call.wcnt.toNat : ℚ)

/-- 41_synchronizer.md R171 with R152 and R154: `PosCheck` in every case, of every state. -/
def Obligations.PosCheckDecides : Prop :=
  ∀ s : State,
    (s.cfg.sync ≠ .pos → posCheck s = s) ∧
    (s.cfg.sync = .pos → s.call.fsm = .search →
      (s.call.pos.toNat ≠ s.cfg.preStart.toNat + s.cfg.preLen.toNat → posCheck s = s) ∧
      (s.call.pos.toNat = s.cfg.preStart.toNat + s.cfg.preLen.toNat → present s = false →
        posCheck s = { s with call := { s.call with left := s.call.bitn, fsm := .silence } }) ∧
      (s.call.pos.toNat = s.cfg.preStart.toNat + s.cfg.preLen.toNat → present s = true →
        posCheck s = { s with
          call := { s.call with
            syncPos := s.call.pos
            syncBit := s.call.bitcnt
            left := if s.cfg.payloadLen = 0 then s.call.bitn else s.call.left
            fsm := if s.cfg.payloadLen = 0 then .done else .payload } })) ∧
    (s.cfg.sync = .pos → s.call.fsm = .payload →
      (s.call.pos.toNat ≠ s.cfg.preStart.toNat + s.cfg.preLen.toNat + s.cfg.payloadLen → posCheck s = s) ∧
      (s.call.pos.toNat = s.cfg.preStart.toNat + s.cfg.preLen.toNat + s.cfg.payloadLen →
        posCheck s = { s with call := { s.call with left := s.call.bitn, fsm := .done } })) ∧
    (s.call.fsm.running = false → posCheck s = s)

/-- 41_synchronizer.md R141: `SAMPLE` and `SKIP` raise `SEQ` in `IDLE` and are ignored in a terminal state. -/
def Obligations.RecordsGatedByState : Prop :=
  ∀ s : State,
    (s.call.fsm = .idle →
      (∀ d, exec (.sample d) s = .next { s with err := s.err ||| 0x04 }) ∧
      exec .skip s = .next { s with err := s.err ||| 0x04 }) ∧
    (s.call.fsm.terminal = true → (∀ d, exec (.sample d) s = .next s) ∧ exec .skip s = .next s)

/-- 41_synchronizer.md R170: a running `SKIP` takes an index, is counted, and lets `PosCheck` decide. -/
def Obligations.SkipConsumesIndex : Prop :=
  ∀ s : State,
    (s.call.fsm = .idle → exec .skip s = .next { s with err := s.err ||| 0x04 }) ∧
    (s.call.fsm.terminal = true → exec .skip s = .next s) ∧
    (s.call.fsm.running = true →
      exec .skip s = .next (posCheck { s with
        call := { s.call with
          pos := BitVec.ofNat 32 (min (s.call.pos.toNat + 1) 0xFFFFFFFF)
          skipCnt := BitVec.ofNat 16 (min (s.call.skipCnt.toNat + 1) 0xFFFF) } }))

/-- 41_synchronizer.md R165: in tone mode `SEARCH`, a chunk within the tolerance of the handshake enters the payload, and
any other chunk takes an index and does nothing else. -/
def Obligations.ToneHandshakeSyncs : Prop :=
  ∀ (s : State) (f : Half), s.call.fsm = .search → s.cfg.sync = .tone →
    ∃ p : BitVec 32, p.toNat = min (s.call.pos.toNat + 1) 0xFFFFFFFF ∧
      (toneDistance f s.cfg.toneHs ≤ s.cfg.toneTol.toNat →
        exec (.sample f) s = .next { s with
          call := { s.call with pos := p, syncPos := p, syncBit := s.call.bitcnt, fsm := .payload } }) ∧
      (s.cfg.toneTol.toNat < toneDistance f s.cfg.toneHs →
        exec (.sample f) s = .next { s with call := { s.call with pos := p } })

/-- 41_synchronizer.md R166, R167: in tone mode `PAYLOAD`, a matched chunk emits its symbol's two bits, the high one first,
and the call goes on; an unmatched chunk is dropped and counted, and nothing else changes. -/
def Obligations.ToneSymbolEmitsTwoBits : Prop :=
  ∀ (s : State) (f : Half), s.call.fsm = .payload → s.cfg.sync = .tone →
    ∃ p : BitVec 32, p.toNat = min (s.call.pos.toNat + 1) 0xFFFFFFFF ∧
      (toneSymbol s.cfg f = none →
        exec (.sample f) s = .next { s with
          call := { s.call with
            pos := p, dropCnt := BitVec.ofNat 16 (min (s.call.dropCnt.toNat + 1) 0xFFFF) } }) ∧
      ∀ k, toneSymbol s.cfg f = some k →
        ∃ t, exec (.sample f) s = .next t ∧
          t = emitBit (k.getLsbD 0) (emitBit (k.getLsbD 1) { s with call := { s.call with pos := p } }) ∧
          t.call.fsm = .payload ∧ t.call.dropCnt = s.call.dropCnt ∧
          (s.mem.raw.length + 2 ≤ s.params.rawCap →
            t.mem.raw = s.mem.raw ++ [k.getLsbD 1, k.getLsbD 0]) ∧
          (s.mem.msg.length < s.params.msgCap →
            t.assembled = s.assembled ++ [k.getLsbD 1, k.getLsbD 0])

/-- 40_classifier.md R111: a glitch in a power mode takes an index, is counted, and reaches neither the history, nor the
accumulator, nor a buffer; only `PosCheck` may still end the window. -/
def Obligations.GlitchIsDiscarded : Prop :=
  ∀ (s : State) (d : Half), s.call.fsm.running = true → s.cfg.sync ≠ .tone →
    d.toInt < s.cfg.glitch.toInt →
      ∃ t, exec (.sample d) s = .next t ∧
        t = posCheck { s with
          call := { s.call with
            pos := BitVec.ofNat 32 (min (s.call.pos.toNat + 1) 0xFFFFFFFF)
            glitchCnt := BitVec.ofNat 16 (min (s.call.glitchCnt.toNat + 1) 0xFFFF) } } ∧
        t.cls = s.cls ∧ t.mem = s.mem ∧ t.err = s.err ∧ t.call.wsum = s.call.wsum ∧ t.call.wcnt = s.call.wcnt ∧
        t.call.bitcnt = s.call.bitcnt

/-- 41_synchronizer.md R140, R145, R151, R153: in positional mode `SEARCH`, a classified sample is added to the
accumulator exactly when its index is in the preamble window, then updates the classifier's state, its bit not being
used, and then `PosCheck` decides: at the sample that brings POS to `S`, on the sum that has that sample in it. The
accumulator does not wrap where its bounds hold (10_state.md R24). -/
def Obligations.PreambleWindowAccumulates : Prop :=
  ∀ (s : State) (d : Half), Classified d s → s.cfg.sync = .pos → s.call.fsm = .search →
    ∃ u t : State,
      u = { s with
        call := { s.call with
          pos := BitVec.ofNat 32 (min (s.call.pos.toNat + 1) 0xFFFFFFFF)
          wsum :=
            if s.cfg.preStart.toNat ≤ s.call.pos.toNat ∧
                s.call.pos.toNat < s.cfg.preStart.toNat + s.cfg.preLen.toNat then
              BitVec.ofInt 32 (s.call.wsum.toInt + d.toInt)
            else s.call.wsum
          wcnt :=
            if s.cfg.preStart.toNat ≤ s.call.pos.toNat ∧
                s.call.pos.toNat < s.cfg.preStart.toNat + s.cfg.preLen.toNat then
              BitVec.ofNat 16 (s.call.wcnt.toNat + 1)
            else s.call.wcnt } } ∧
      t = posCheck (classifyUpdate d u) ∧ exec (.sample d) s = .next t ∧
      t.call.wsum = u.call.wsum ∧ t.call.wcnt = u.call.wcnt ∧ t.call.pos = u.call.pos ∧
      t.mem = s.mem ∧ t.call.bitcnt = s.call.bitcnt ∧
      t.cls = (classifyUpdate d s).cls ∧ t.err = (classifyUpdate d s).err ∧
      (WindowOk s →
        t.call.pos.toNat = s.call.pos.toNat + 1 ∧
        (s.cfg.preStart.toNat ≤ s.call.pos.toNat →
          t.call.wsum.toInt = s.call.wsum.toInt + d.toInt ∧ t.call.wcnt.toNat = s.call.wcnt.toNat + 1))

/-- 41_synchronizer.md R140, R145, R154: in positional mode `PAYLOAD`, the bit of a classified sample, if there is one, is
emitted, and the end is decided by the index. -/
def Obligations.PositionalPayloadEmits : Prop :=
  ∀ (s : State) (d : Half), Classified d s → s.cfg.sync = .pos → s.call.fsm = .payload →
    ∃ u : State,
      u = classifyUpdate d { s with
        call := { s.call with pos := BitVec.ofNat 32 (min (s.call.pos.toNat + 1) 0xFFFFFFFF) } } ∧
      (∀ b, classifyBit s.cfg s.cls d = some b → exec (.sample d) s = .next (posCheck (emitBit b u))) ∧
      (classifyBit s.cfg s.cls d = none → exec (.sample d) s = .next (posCheck u))

/-- 41_synchronizer.md R140, R146: in pattern mode the bit of a classified sample, if there is one, is emitted in `SEARCH`
and in `PAYLOAD` alike, and no index decides anything. -/
def Obligations.PatternModeEmitsEveryBit : Prop :=
  ∀ (s : State) (d : Half), Classified d s → s.cfg.sync = .pat →
    ∃ u : State,
      u = classifyUpdate d { s with
        call := { s.call with pos := BitVec.ofNat 32 (min (s.call.pos.toNat + 1) 0xFFFFFFFF) } } ∧
      (∀ b, classifyBit s.cfg s.cls d = some b → exec (.sample d) s = .next (emitBit b u)) ∧
      (classifyBit s.cfg s.cls d = none → exec (.sample d) s = .next u)

/-- 10_state.md R23, 41_synchronizer.md R142: a record accepted while running advances POS by one, saturating; no other
command changes it, but for `START` and `SRST`, which put it to 0. -/
def Obligations.PosCountsRecords : Prop :=
  ∀ (i : Instr) (s t : State), exec i s = .next t →
    ((∃ d, i = .sample d) ∨ i = .skip →
      (s.call.fsm.running = true → t.call.pos.toNat = min (s.call.pos.toNat + 1) 0xFFFFFFFF) ∧
      (s.call.fsm.running = false → t.call.pos = s.call.pos)) ∧
    (i = .srst ∨ (i = .start ∧ s.call.fsm.running = false) → t.call.pos = 0) ∧
    (i = .start → s.call.fsm.running = true → t.call.pos = s.call.pos) ∧
    ((∀ d, i ≠ .sample d) → i ≠ .skip → i ≠ .srst → i ≠ .start → t.call.pos = s.call.pos)

/-! What a `SAMPLE` leaves alone, and what no command does. -/

/-- 41_synchronizer.md R140 with 40_classifier.md R110, R121: whatever a `SAMPLE` does, it leaves the configuration, the
sizes, the port and the responses, NOPRE, SHORT, SKIP_CNT, the calibration, and every error bit but NOCAL, and NOCAL
changes only in a power mode under CAL without a baseline. -/
def Obligations.SampleFrame : Prop :=
  ∀ (s t : State) (d : Half), s.call.fsm ≠ .idle → exec (.sample d) s = .next t →
    t.params = s.params ∧ t.cfg = s.cfg ∧ t.port = s.port ∧ t.responses = s.responses ∧
    t.call.nopre = s.call.nopre ∧ t.call.short = s.call.short ∧ t.call.skipCnt = s.call.skipCnt ∧
    t.cls.calValid = s.cls.calValid ∧ t.cls.calBase2 = s.cls.calBase2 ∧
    (t.err = s.err ∨
      (t.err = s.err ||| 0x20 ∧ s.cfg.sync ≠ .tone ∧ s.cfg.policy = .cal ∧ s.cls.calValid = false))

/-- 20_memory.md R60, R61, R66, R67: within a call a stored byte or bit never changes. A `SAMPLE` stores at most at index
`MSG_LEN` of `MSG` and at `RAW_LEN` and `RAW_LEN + 1` of `RAW`; the other commands, but for `START` and `SRST`, store
nothing. After the end of a call the per-call state stays as `Finalize` left it until `START` or `SRST` (42_reassembler.md
R184), but for the glitches that `CALS` counts (10_state.md R39; the model's reading, log 16). -/
def Obligations.BuffersAppendOnly : Prop :=
  ∀ (i : Instr) (s t : State), exec i s = .next t →
    ((∃ d, i = .sample d) →
      (∀ j, j ≠ s.mem.msg.length → t.mem.readMsg j = s.mem.readMsg j) ∧
      (∀ j, j ≠ s.mem.raw.length → j ≠ s.mem.raw.length + 1 → t.mem.readRaw j = s.mem.readRaw j)) ∧
    ((∀ d, i ≠ .sample d) → i ≠ .start → i ≠ .srst →
      (∀ j, t.mem.readMsg j = s.mem.readMsg j) ∧ ∀ j, t.mem.readRaw j = s.mem.readRaw j) ∧
    (s.call.fsm.terminal = true → i ≠ .start → i ≠ .srst →
      t.mem = s.mem ∧ { t.call with glitchCnt := s.call.glitchCnt } = s.call ∧
      ((∀ d, i ≠ .cals d) → t.call = s.call))

/-- 43_orchestrator.md R201: every change of FSM is a transition of the table, under the table's mode. -/
def Obligations.FsmFollowsTable : Prop :=
  ∀ (i : Instr) (s t : State), exec i s = .next t →
    t.call.fsm = s.call.fsm ∨
    (i = .start ∧ s.call.fsm.running = false ∧
      (t.call.fsm = .search ∨ (t.call.fsm = .silence ∧ s.cfg.sync = .pos) ∨
        ((t.call.fsm = .payload ∨ t.call.fsm = .done) ∧ s.cfg.sync = .pat))) ∨
    (((∃ d, i = .sample d) ∨ i = .skip) ∧ s.cfg.sync = .pos ∧
      ((s.call.fsm = .search ∧ (t.call.fsm = .payload ∨ t.call.fsm = .done ∨ t.call.fsm = .silence)) ∨
        (s.call.fsm = .payload ∧ t.call.fsm = .done))) ∨
    ((∃ d, i = .sample d) ∧ s.cfg.sync = .pat ∧
      ((s.call.fsm = .search ∧ (t.call.fsm = .payload ∨ t.call.fsm = .done)) ∨
        (s.call.fsm = .payload ∧ t.call.fsm = .done))) ∨
    ((∃ d, i = .sample d) ∧ s.cfg.sync = .tone ∧ s.call.fsm = .search ∧ t.call.fsm = .payload) ∨
    (i = .endCall ∧ s.call.fsm = .search ∧ s.cfg.sync ≠ .pat ∧ t.call.fsm = .silence) ∨
    (i = .endCall ∧ s.call.fsm = .search ∧ s.cfg.sync = .pat ∧ t.call.fsm = .unsynced) ∨
    (i = .endCall ∧ s.call.fsm = .payload ∧ t.call.fsm = .done) ∨
    (i = .srst ∧ t.call.fsm = .idle)

/-- 60_exceptions.md R252, R253: a command other than `SRST` sets at most one bit of ERR, and one of those that R252 lists
for it. -/
def Obligations.AtMostOneErrorBit : Prop :=
  ∀ (i : Instr) (s t : State), i ≠ .srst → exec i s = .next t →
    t.err = s.err ∨ ∃ e : ErrBit, t.err = s.err ||| e.mask ∧
      match i with
      | .wrreg _ _ => e = .cfgBusy ∨ e = .addr ∨ e = .cfgVal
      | .rdreg _ => e = .addr
      | .start => e = .seq
      | .sample _ => e = .seq ∨ e = .noCal
      | .skip => e = .seq
      | .endCall => e = .seq
      | .cals _ => e = .seq
      | .clrh => e = .seq
      | .rdmsg _ => e = .range
      | .rdraw _ => e = .range
      | .nop => False
      | .srst => False

/-- 60_exceptions.md R254: a bit of ERR that is set stays set through every step but a hardware reset and an `SRST`. -/
def Obligations.ErrorsAreSticky : Prop :=
  ∀ (s t : State) (k : Nat), step s = .next t → s.err.getLsbD k = true →
    t.err.getLsbD k = true ∨
    (∃ rest, s.port = .hardwareReset :: rest) ∨
    (∃ w rest, s.port = .command w :: rest ∧ decode w = .ok .srst)

/-- 20_memory.md R74: while the block is running, no step changes the configuration but a hardware reset and an `SRST`. -/
def Obligations.ConfigurationLockedWhileRunning : Prop :=
  ∀ s t : State, step s = .next t → s.call.fsm.running = true →
    t.cfg = s.cfg ∨
    (∃ rest, s.port = .hardwareReset :: rest) ∨
    (∃ w rest, s.port = .command w :: rest ∧ decode w = .ok .srst)

/-- 10_state.md R43, R44, 43_orchestrator.md R211: the classifier's persistent state is emptied by `SRST`, `CLRH` and an
accepted `WRREG` to MODE, WIN or CAL_LEN alone (44_register_access.md R233); grows by a `CALS` under CAL that is no
glitch, which fixes the baseline at the CAL_LEN-th sample and never again (40_classifier.md R118, R119); takes in a
running power-mode `SAMPLE` under ADAPT that is no glitch, within the window (R116); and is left alone by everything
else, `START`, `END`, a `SAMPLE` under CAL (R120) and a `SAMPLE` in tone mode among them. That a `CALS` collects in tone
mode too is the model's reading of R43 beside R118's pseudocode (log 14). -/
def Obligations.HistoryLifetime : Prop :=
  ∀ (i : Instr) (s t : State), exec i s = .next t →
    t.cls = s.cls ∨
    (t.cls = Classifier.reset ∧
      (i = .srst ∨ (i = .clrh ∧ s.call.fsm.running = false) ∨
        ∃ r d, i = .wrreg (.cfg r) d ∧ (r = .mode ∨ r = .win ∨ r = .calLen) ∧ s.call.fsm.running = false ∧
          legalValue s.params r d = true)) ∨
    (∃ d, i = .cals d ∧ s.cfg.policy = .cal ∧ s.call.fsm.running = false ∧
      s.cfg.glitch.toInt ≤ d.toInt ∧ s.cls.calValid = false ∧ t.cls.hist = s.cls.hist ++ [d] ∧
      (t.cls.calValid = true ↔ s.cls.hist.length + 1 = s.cfg.calLen.toNat) ∧
      (t.cls.calValid = true → t.cls.calBase2.toInt = median2 t.cls.hist) ∧
      (t.cls.calValid = false → t.cls.calBase2 = s.cls.calBase2)) ∨
    (∃ d, i = .sample d ∧ s.cfg.policy = .adapt ∧ Classified d s ∧
      (s.cls.hist.length < s.cfg.win.toNat → t.cls.hist = s.cls.hist ++ [d]) ∧
      (s.cfg.win.toNat ≤ s.cls.hist.length → t.cls.hist = (s.cls.hist ++ [d]).tail) ∧
      t.cls.calValid = s.cls.calValid ∧ t.cls.calBase2 = s.cls.calBase2)

/-- 10_state.md R22, R49: the six codes of FSM are 0, 1, 2, 4, 5 and 6, so 3 and 7 never occur; `done` is 1 exactly in a
terminal state, and `err` exactly when a bit of ERR is set. -/
def Obligations.OutputLevels : Prop :=
  (Fsm.idle.code = 0 ∧ Fsm.search.code = 1 ∧ Fsm.payload.code = 2 ∧ Fsm.silence.code = 4 ∧ Fsm.done.code = 5 ∧
    Fsm.unsynced.code = 6) ∧
  (∀ f : Fsm, f.code ≠ 3 ∧ f.code ≠ 7 ∧ (f.code.getLsbD 2 = true ↔ f.terminal = true)) ∧
  ∀ s : State,
    (s.doneLevel = true ↔ s.call.fsm = .silence ∨ s.call.fsm = .done ∨ s.call.fsm = .unsynced) ∧
    (s.errLevel = true ↔ ∃ k < 7, s.err.getLsbD k = true)

/-! Invariants. -/

/-- The reset state of every legal instance meets every condition of Safety.lean. -/
def Obligations.ResetMeetsInvariant : Prop :=
  (∀ p : Params, p.Legal → Inv (State.resetWith p)) ∧ Inv State.reset

/-- 10_state.md R25, R26, 44_register_access.md R234: no step takes a configuration register to an illegal value. -/
def Obligations.StepKeepsConfigurationLegal : Prop :=
  ∀ s t : State, ConfigOk s → step s = .next t → ConfigOk t

/-- 10_state.md R43, R44, 40_classifier.md R118, R119: every step keeps the history within its policy's bound, empty under
FIXED and in tone mode without CAL (with CAL it is what `CALS` collected, the model's reading, log 14), and the calibrated
baseline equal to twice the median of the CAL_LEN samples it was fixed from. -/
def Obligations.StepKeepsHistoryBounds : Prop :=
  ∀ s t : State, ConfigOk s → HistoryOk s → step s = .next t → HistoryOk t

/-- 10_state.md R38, 42_reassembler.md R181, R183: every step keeps `RAW_LEN = min(BITCNT, RAW_CAP)`, RAWOVF exactly when
a bit was lost, and both buffers within their capacities. -/
def Obligations.StepKeepsBuffersCounted : Prop :=
  ∀ s t : State, s.params.Legal → BuffersOk s → step s = .next t → BuffersOk t

/-- 42_reassembler.md R187, 10_state.md R35, R37: every step keeps what each state of the call implies: `SILENCE` has no
message and no bits, NOPRE means `UNSYNCED`, SHORT means `DONE`, LEFT is the leftover count of a finished call. -/
def Obligations.StepKeepsCallState : Prop :=
  ∀ s t : State, CallOk s → step s = .next t → CallOk t

/-- 10_state.md R24, 41_synchronizer.md R150 to R154: every step keeps the presence accumulator within the bounds that make
its 32 bits exact, and the record index within the window that the state stands for. -/
def Obligations.StepKeepsWindow : Prop :=
  ∀ s t : State, WindowOk s → step s = .next t → WindowOk t

/-- 42_reassembler.md R182 to R184, R189, 20_memory.md R62: every step keeps `MSG` the regrouping of the payload bits of
`RAW`: a byte for every eight payload bits, most significant bit first, the rest of them in the byte being assembled. -/
def Obligations.StepKeepsMessageRegrouped : Prop :=
  ∀ s t : State, s.params.Legal → BuffersOk s → CallOk s → PayloadOk s → MessageOk s → step s = .next t →
    PayloadOk t ∧ MessageOk t

/-- 10_state.md R42, 60_exceptions.md R265: every step keeps the matcher's shift register equal to the last bits of
`RAW`. -/
def Obligations.StepKeepsShiftRegister : Prop :=
  ∀ s t : State, s.params.Legal → BuffersOk s → ShiftOk s → step s = .next t → ShiftOk t
end

