-- ==== Sys2Proof/Laws/Decode.lean ====
section
/-! SUPPORT. The fields of a command word and the register numbers: what the encoder writes is what the decoder reads
(spec 30_encoding.md R80, 10_state.md R25, R34). -/

namespace Sys2Proof

@[simp] theorem opField_fieldsWord (op : BitVec 4) (reg : RegNumber) (data : Half) :
    opField (fieldsWord op reg data) = op := by
  ext i hi
  simp only [opField, fieldsWord, BitVec.getElem_extractLsb', BitVec.getLsbD_append]
  have h1 : ¬ 28 + i < 28 := by omega
  have h3 : 28 + i - 28 = i := by omega
  simp [h1, h3, BitVec.getLsbD_eq_getElem hi]

@[simp] theorem regField_fieldsWord (op : BitVec 4) (reg : RegNumber) (data : Half) :
    regField (fieldsWord op reg data) = reg := by
  ext i hi
  simp only [regField, fieldsWord, BitVec.getElem_extractLsb', BitVec.getLsbD_append]
  have h1 : 16 + i < 28 := by omega
  have h2 : 16 + i < 24 := by omega
  have h3 : 16 + i - 16 = i := by omega
  simp [h1, h2, h3, BitVec.getLsbD_eq_getElem hi]

@[simp] theorem dataField_fieldsWord (op : BitVec 4) (reg : RegNumber) (data : Half) :
    dataField (fieldsWord op reg data) = data := by
  ext i hi
  simp only [dataField, fieldsWord, BitVec.getElem_extractLsb', BitVec.getLsbD_append]
  have h1 : i < 28 := by omega
  have h2 : i < 24 := by omega
  have h3 : i < 16 := by omega
  simp [h1, h2, h3]

/-- Bits 27:24 of an encoded word are 0 (30_encoding.md R80). -/
@[simp] theorem reservedField_fieldsWord (op : BitVec 4) (reg : RegNumber) (data : Half) :
    (fieldsWord op reg data).extractLsb' 24 4 = 0 := by
  ext i hi
  simp only [fieldsWord, BitVec.getElem_extractLsb', BitVec.getLsbD_append]
  have h1 : 24 + i < 28 := by omega
  have h2 : ¬ 24 + i < 24 := by omega
  simp [h1, h2]

/-- Every register number of 10_state.md R25 names its configuration register. -/
@[simp] theorem ofNumber_cfg (r : CfgReg) : Reg.ofNumber r.number = .cfg r := by
  cases r <;> decide

/-- Every register number of 10_state.md R34 names its status register. -/
@[simp] theorem ofNumber_stat (r : StatReg) : Reg.ofNumber r.number = .stat r := by
  cases r <;> decide

/-- The other numbers name nothing (20_memory.md R68), and a number's name gives the number back. -/
theorem ofNumber_spec : ∀ n : RegNumber,
    (Reg.ofNumber n).wellFormed = true ∧ (Reg.ofNumber n).number = n ∧
      ((!isCfgNumber n && !isStatNumber n) = true → Reg.ofNumber n = .unimplemented n) := by
  decide

end Sys2Proof
end

