-- ==== Sys2Proof/Laws/State.lean ====
section
/-! SUPPORT. One lemma per field per update of the state, all true by unfolding the update once. -/

namespace Sys2Proof.Machine

variable (s : State)

@[simp] theorem State.withCfg_params (x : Cfg) : (s.withCfg x).params = s.params := rfl
@[simp] theorem State.withCfg_cfg (x : Cfg) : (s.withCfg x).cfg = x := rfl
@[simp] theorem State.withCfg_call (x : Cfg) : (s.withCfg x).call = s.call := rfl
@[simp] theorem State.withCfg_cls (x : Cfg) : (s.withCfg x).cls = s.cls := rfl
@[simp] theorem State.withCfg_err (x : Cfg) : (s.withCfg x).err = s.err := rfl
@[simp] theorem State.withCfg_mem (x : Cfg) : (s.withCfg x).mem = s.mem := rfl
@[simp] theorem State.withCfg_port (x : Cfg) : (s.withCfg x).port = s.port := rfl
@[simp] theorem State.withCfg_responses (x : Cfg) : (s.withCfg x).responses = s.responses := rfl

@[simp] theorem State.withCall_params (x : Call) : (s.withCall x).params = s.params := rfl
@[simp] theorem State.withCall_cfg (x : Call) : (s.withCall x).cfg = s.cfg := rfl
@[simp] theorem State.withCall_call (x : Call) : (s.withCall x).call = x := rfl
@[simp] theorem State.withCall_cls (x : Call) : (s.withCall x).cls = s.cls := rfl
@[simp] theorem State.withCall_err (x : Call) : (s.withCall x).err = s.err := rfl
@[simp] theorem State.withCall_mem (x : Call) : (s.withCall x).mem = s.mem := rfl
@[simp] theorem State.withCall_port (x : Call) : (s.withCall x).port = s.port := rfl
@[simp] theorem State.withCall_responses (x : Call) : (s.withCall x).responses = s.responses := rfl

@[simp] theorem State.withCls_params (x : Classifier) : (s.withCls x).params = s.params := rfl
@[simp] theorem State.withCls_cfg (x : Classifier) : (s.withCls x).cfg = s.cfg := rfl
@[simp] theorem State.withCls_call (x : Classifier) : (s.withCls x).call = s.call := rfl
@[simp] theorem State.withCls_cls (x : Classifier) : (s.withCls x).cls = x := rfl
@[simp] theorem State.withCls_err (x : Classifier) : (s.withCls x).err = s.err := rfl
@[simp] theorem State.withCls_mem (x : Classifier) : (s.withCls x).mem = s.mem := rfl
@[simp] theorem State.withCls_port (x : Classifier) : (s.withCls x).port = s.port := rfl
@[simp] theorem State.withCls_responses (x : Classifier) : (s.withCls x).responses = s.responses := rfl

@[simp] theorem State.withErr_params (x : BitVec 7) : (s.withErr x).params = s.params := rfl
@[simp] theorem State.withErr_cfg (x : BitVec 7) : (s.withErr x).cfg = s.cfg := rfl
@[simp] theorem State.withErr_call (x : BitVec 7) : (s.withErr x).call = s.call := rfl
@[simp] theorem State.withErr_cls (x : BitVec 7) : (s.withErr x).cls = s.cls := rfl
@[simp] theorem State.withErr_err (x : BitVec 7) : (s.withErr x).err = x := rfl
@[simp] theorem State.withErr_mem (x : BitVec 7) : (s.withErr x).mem = s.mem := rfl
@[simp] theorem State.withErr_port (x : BitVec 7) : (s.withErr x).port = s.port := rfl
@[simp] theorem State.withErr_responses (x : BitVec 7) : (s.withErr x).responses = s.responses := rfl

@[simp] theorem State.withMem_params (x : Memory) : (s.withMem x).params = s.params := rfl
@[simp] theorem State.withMem_cfg (x : Memory) : (s.withMem x).cfg = s.cfg := rfl
@[simp] theorem State.withMem_call (x : Memory) : (s.withMem x).call = s.call := rfl
@[simp] theorem State.withMem_cls (x : Memory) : (s.withMem x).cls = s.cls := rfl
@[simp] theorem State.withMem_err (x : Memory) : (s.withMem x).err = s.err := rfl
@[simp] theorem State.withMem_mem (x : Memory) : (s.withMem x).mem = x := rfl
@[simp] theorem State.withMem_port (x : Memory) : (s.withMem x).port = s.port := rfl
@[simp] theorem State.withMem_responses (x : Memory) : (s.withMem x).responses = s.responses := rfl

@[simp] theorem State.withPort_params (x : List PortEvent) : (s.withPort x).params = s.params := rfl
@[simp] theorem State.withPort_cfg (x : List PortEvent) : (s.withPort x).cfg = s.cfg := rfl
@[simp] theorem State.withPort_call (x : List PortEvent) : (s.withPort x).call = s.call := rfl
@[simp] theorem State.withPort_cls (x : List PortEvent) : (s.withPort x).cls = s.cls := rfl
@[simp] theorem State.withPort_err (x : List PortEvent) : (s.withPort x).err = s.err := rfl
@[simp] theorem State.withPort_mem (x : List PortEvent) : (s.withPort x).mem = s.mem := rfl
@[simp] theorem State.withPort_port (x : List PortEvent) : (s.withPort x).port = x := rfl
@[simp] theorem State.withPort_responses (x : List PortEvent) : (s.withPort x).responses = s.responses := rfl

@[simp] theorem State.withResponses_params (x : List Word) : (s.withResponses x).params = s.params := rfl
@[simp] theorem State.withResponses_cfg (x : List Word) : (s.withResponses x).cfg = s.cfg := rfl
@[simp] theorem State.withResponses_call (x : List Word) : (s.withResponses x).call = s.call := rfl
@[simp] theorem State.withResponses_cls (x : List Word) : (s.withResponses x).cls = s.cls := rfl
@[simp] theorem State.withResponses_err (x : List Word) : (s.withResponses x).err = s.err := rfl
@[simp] theorem State.withResponses_mem (x : List Word) : (s.withResponses x).mem = s.mem := rfl
@[simp] theorem State.withResponses_port (x : List Word) : (s.withResponses x).port = s.port := rfl
@[simp] theorem State.withResponses_responses (x : List Word) : (s.withResponses x).responses = x := rfl

/-- Two states with equal fields are equal: the way to show a step's result field by field. -/
theorem State.ext_fields {s t : State} (hp : s.params = t.params) (hc : s.cfg = t.cfg) (hl : s.call = t.call)
    (hk : s.cls = t.cls) (he : s.err = t.err) (hm : s.mem = t.mem) (ho : s.port = t.port)
    (hr : s.responses = t.responses) : s = t := by
  cases s
  cases t
  simp_all

@[simp] theorem State.resetWith_params (p : Params) : (State.resetWith p).params = p := rfl
@[simp] theorem State.resetWith_cfg (p : Params) : (State.resetWith p).cfg = Cfg.reset := rfl
@[simp] theorem State.resetWith_call (p : Params) : (State.resetWith p).call = Call.reset := rfl
@[simp] theorem State.resetWith_cls (p : Params) : (State.resetWith p).cls = Classifier.reset := rfl
@[simp] theorem State.resetWith_err (p : Params) : (State.resetWith p).err = 0 := rfl
@[simp] theorem State.resetWith_mem (p : Params) : (State.resetWith p).mem = Memory.reset := rfl
@[simp] theorem State.resetWith_port (p : Params) : (State.resetWith p).port = [] := rfl
@[simp] theorem State.resetWith_responses (p : Params) : (State.resetWith p).responses = [] := rfl

end Sys2Proof.Machine
end

