-- ==== Sys2Proof/Laws/Ops.lean ====
section
/-! SUPPORT. What each shared operation of Machine/Ops.lean changes and what it leaves alone. -/

namespace Sys2Proof.Machine

variable (s : State)

@[simp] theorem raise_params (e : ErrBit) : (raise e s).params = s.params := rfl
@[simp] theorem raise_cfg (e : ErrBit) : (raise e s).cfg = s.cfg := rfl
@[simp] theorem raise_call (e : ErrBit) : (raise e s).call = s.call := rfl
@[simp] theorem raise_cls (e : ErrBit) : (raise e s).cls = s.cls := rfl
@[simp] theorem raise_mem (e : ErrBit) : (raise e s).mem = s.mem := rfl
@[simp] theorem raise_port (e : ErrBit) : (raise e s).port = s.port := rfl
@[simp] theorem raise_responses (e : ErrBit) : (raise e s).responses = s.responses := rfl
@[simp] theorem raise_err (e : ErrBit) : (raise e s).err = s.err ||| e.mask := rfl

@[simp] theorem respond_params (v : Word) : (respond v s).params = s.params := rfl
@[simp] theorem respond_cfg (v : Word) : (respond v s).cfg = s.cfg := rfl
@[simp] theorem respond_call (v : Word) : (respond v s).call = s.call := rfl
@[simp] theorem respond_cls (v : Word) : (respond v s).cls = s.cls := rfl
@[simp] theorem respond_err (v : Word) : (respond v s).err = s.err := rfl
@[simp] theorem respond_mem (v : Word) : (respond v s).mem = s.mem := rfl
@[simp] theorem respond_port (v : Word) : (respond v s).port = s.port := rfl
@[simp] theorem respond_responses (v : Word) : (respond v s).responses = s.responses ++ [v] := rfl

@[simp] theorem advancePos_params : (advancePos s).params = s.params := rfl
@[simp] theorem advancePos_cfg : (advancePos s).cfg = s.cfg := rfl
@[simp] theorem advancePos_cls : (advancePos s).cls = s.cls := rfl
@[simp] theorem advancePos_err : (advancePos s).err = s.err := rfl
@[simp] theorem advancePos_mem : (advancePos s).mem = s.mem := rfl
@[simp] theorem advancePos_port : (advancePos s).port = s.port := rfl
@[simp] theorem advancePos_responses : (advancePos s).responses = s.responses := rfl
@[simp] theorem advancePos_call : (advancePos s).call = { s.call with pos := bump32 s.call.pos } := rfl

@[simp] theorem countGlitch_params : (countGlitch s).params = s.params := rfl
@[simp] theorem countGlitch_cfg : (countGlitch s).cfg = s.cfg := rfl
@[simp] theorem countGlitch_cls : (countGlitch s).cls = s.cls := rfl
@[simp] theorem countGlitch_err : (countGlitch s).err = s.err := rfl
@[simp] theorem countGlitch_mem : (countGlitch s).mem = s.mem := rfl
@[simp] theorem countGlitch_port : (countGlitch s).port = s.port := rfl
@[simp] theorem countGlitch_responses : (countGlitch s).responses = s.responses := rfl
@[simp] theorem countGlitch_call : (countGlitch s).call = { s.call with glitchCnt := bump16 s.call.glitchCnt } := rfl

@[simp] theorem countSkip_params : (countSkip s).params = s.params := rfl
@[simp] theorem countSkip_cfg : (countSkip s).cfg = s.cfg := rfl
@[simp] theorem countSkip_cls : (countSkip s).cls = s.cls := rfl
@[simp] theorem countSkip_err : (countSkip s).err = s.err := rfl
@[simp] theorem countSkip_mem : (countSkip s).mem = s.mem := rfl
@[simp] theorem countSkip_port : (countSkip s).port = s.port := rfl
@[simp] theorem countSkip_responses : (countSkip s).responses = s.responses := rfl
@[simp] theorem countSkip_call : (countSkip s).call = { s.call with skipCnt := bump16 s.call.skipCnt } := rfl

@[simp] theorem countDrop_params : (countDrop s).params = s.params := rfl
@[simp] theorem countDrop_cfg : (countDrop s).cfg = s.cfg := rfl
@[simp] theorem countDrop_cls : (countDrop s).cls = s.cls := rfl
@[simp] theorem countDrop_err : (countDrop s).err = s.err := rfl
@[simp] theorem countDrop_mem : (countDrop s).mem = s.mem := rfl
@[simp] theorem countDrop_port : (countDrop s).port = s.port := rfl
@[simp] theorem countDrop_responses : (countDrop s).responses = s.responses := rfl
@[simp] theorem countDrop_call : (countDrop s).call = { s.call with dropCnt := bump16 s.call.dropCnt } := rfl

@[simp] theorem countWarm_params : (countWarm s).params = s.params := rfl
@[simp] theorem countWarm_cfg : (countWarm s).cfg = s.cfg := rfl
@[simp] theorem countWarm_cls : (countWarm s).cls = s.cls := rfl
@[simp] theorem countWarm_err : (countWarm s).err = s.err := rfl
@[simp] theorem countWarm_mem : (countWarm s).mem = s.mem := rfl
@[simp] theorem countWarm_port : (countWarm s).port = s.port := rfl
@[simp] theorem countWarm_responses : (countWarm s).responses = s.responses := rfl
@[simp] theorem countWarm_call : (countWarm s).call = { s.call with warmCnt := bump16 s.call.warmCnt } := rfl

@[simp] theorem clearHistory_params : (clearHistory s).params = s.params := rfl
@[simp] theorem clearHistory_cfg : (clearHistory s).cfg = s.cfg := rfl
@[simp] theorem clearHistory_call : (clearHistory s).call = s.call := rfl
@[simp] theorem clearHistory_err : (clearHistory s).err = s.err := rfl
@[simp] theorem clearHistory_mem : (clearHistory s).mem = s.mem := rfl
@[simp] theorem clearHistory_port : (clearHistory s).port = s.port := rfl
@[simp] theorem clearHistory_responses : (clearHistory s).responses = s.responses := rfl
@[simp] theorem clearHistory_cls : (clearHistory s).cls = Classifier.reset := rfl

@[simp] theorem resetState_params : (resetState s).params = s.params := rfl
@[simp] theorem resetState_cfg : (resetState s).cfg = Cfg.reset := rfl
@[simp] theorem resetState_call : (resetState s).call = Call.reset := rfl
@[simp] theorem resetState_cls : (resetState s).cls = Classifier.reset := rfl
@[simp] theorem resetState_err : (resetState s).err = 0 := rfl
@[simp] theorem resetState_mem : (resetState s).mem = Memory.reset := rfl
@[simp] theorem resetState_port : (resetState s).port = s.port := rfl
@[simp] theorem resetState_responses : (resetState s).responses = s.responses := rfl

@[simp] theorem storeRawBit_params (b : Bool) : (storeRawBit b s).params = s.params := by unfold storeRawBit; split <;> rfl
@[simp] theorem storeRawBit_cfg (b : Bool) : (storeRawBit b s).cfg = s.cfg := by unfold storeRawBit; split <;> rfl
@[simp] theorem storeRawBit_cls (b : Bool) : (storeRawBit b s).cls = s.cls := by unfold storeRawBit; split <;> rfl
@[simp] theorem storeRawBit_err (b : Bool) : (storeRawBit b s).err = s.err := by unfold storeRawBit; split <;> rfl
@[simp] theorem storeRawBit_port (b : Bool) : (storeRawBit b s).port = s.port := by unfold storeRawBit; split <;> rfl
@[simp] theorem storeRawBit_responses (b : Bool) : (storeRawBit b s).responses = s.responses := by unfold storeRawBit; split <;> rfl

/-- What storing a bit does (42_reassembler.md R181): counted always, appended if there is room, else flagged. -/
theorem storeRawBit_call (b : Bool) : (storeRawBit b s).call =
    { s.call with
      bitcnt := bump32 s.call.bitcnt
      rawovf := s.call.rawovf || !decide (s.mem.raw.length < s.params.rawCap) } := by
  unfold storeRawBit
  split <;> simp_all

theorem storeRawBit_mem (b : Bool) : (storeRawBit b s).mem =
    if s.mem.raw.length < s.params.rawCap then { s.mem with raw := s.mem.raw ++ [b] } else s.mem := by
  unfold storeRawBit
  split <;> rfl

@[simp] theorem storeByte_params (x : Byte) : (storeByte x s).params = s.params := by unfold storeByte; split <;> rfl
@[simp] theorem storeByte_cfg (x : Byte) : (storeByte x s).cfg = s.cfg := by unfold storeByte; split <;> rfl
@[simp] theorem storeByte_cls (x : Byte) : (storeByte x s).cls = s.cls := by unfold storeByte; split <;> rfl
@[simp] theorem storeByte_err (x : Byte) : (storeByte x s).err = s.err := by unfold storeByte; split <;> rfl
@[simp] theorem storeByte_port (x : Byte) : (storeByte x s).port = s.port := by unfold storeByte; split <;> rfl
@[simp] theorem storeByte_responses (x : Byte) : (storeByte x s).responses = s.responses := by unfold storeByte; split <;> rfl

/-- What storing a byte does (42_reassembler.md R183): appended if there is room, else flagged. -/
theorem storeByte_call (x : Byte) : (storeByte x s).call =
    { s.call with msgovf := s.call.msgovf || !decide (s.mem.msg.length < s.params.msgCap) } := by
  unfold storeByte
  split <;> simp_all

theorem storeByte_mem (x : Byte) : (storeByte x s).mem =
    if s.mem.msg.length < s.params.msgCap then { s.mem with msg := s.mem.msg ++ [x] } else s.mem := by
  unfold storeByte
  split <;> rfl

/-! The saturating counters as numbers. -/

theorem bump32_toNat (c : BitVec 32) : (bump32 c).toNat = min (c.toNat + 1) 0xFFFFFFFF := by
  simp only [bump32, sat32, BitVec.toNat_ofNat]
  omega

theorem bump16_toNat (c : BitVec 16) : (bump16 c).toNat = min (c.toNat + 1) 0xFFFF := by
  simp only [bump16, sat16, BitVec.toNat_ofNat]
  omega

theorem bump32_of_lt {c : BitVec 32} (h : c.toNat < 0xFFFFFFFF) : (bump32 c).toNat = c.toNat + 1 := by
  rw [bump32_toNat]
  omega

/-! The shift of a bit into the low end, and the packing of bits into a word. -/

theorem getLsbD_shiftIn {n : Nat} (a : BitVec n) (b : Bool) (i : Nat) (hi : i < n) :
    (shiftIn a b).getLsbD i = if i = 0 then b else a.getLsbD (i - 1) := by
  rcases i with _ | i
  · simp [shiftIn, hi]
  · simp [shiftIn, hi, BitVec.getLsbD_eq_getElem (show i < n by omega)]

theorem getLsbD_packBits (raw : List Bool) (base n k : Nat) (hk : k < n) :
    (packBits raw base n).getLsbD (n - 1 - k) = raw.getD (base + k) false := by
  induction n with
  | zero => omega
  | succ n ih =>
    rw [packBits, BitVec.getLsbD_concat]
    rcases Nat.lt_or_ge k n with h | h
    · have h1 : n + 1 - 1 - k ≠ 0 := by omega
      have h2 : n + 1 - 1 - k - 1 = n - 1 - k := by omega
      rw [if_neg h1, h2, ih h]
    · have h1 : k = n := by omega
      subst h1
      simp

end Sys2Proof.Machine
end

