-- ==== Sys2Proof/Laws/Reassembler.lean ====
section
/-! SUPPORT. What each operation of Machine/Reassembler.lean changes and what it leaves alone. -/

namespace Sys2Proof.Machine

variable (s : State)

@[simp] theorem finalize_params (st : Fsm) : (finalize st s).params = s.params := rfl
@[simp] theorem finalize_cfg (st : Fsm) : (finalize st s).cfg = s.cfg := rfl
@[simp] theorem finalize_cls (st : Fsm) : (finalize st s).cls = s.cls := rfl
@[simp] theorem finalize_err (st : Fsm) : (finalize st s).err = s.err := rfl
@[simp] theorem finalize_mem (st : Fsm) : (finalize st s).mem = s.mem := rfl
@[simp] theorem finalize_port (st : Fsm) : (finalize st s).port = s.port := rfl
@[simp] theorem finalize_responses (st : Fsm) : (finalize st s).responses = s.responses := rfl

@[simp] theorem finalize_call (st : Fsm) :
    (finalize st s).call = { s.call with left := s.call.bitn, fsm := st } := rfl

@[simp] theorem enterPayload_params : (enterPayload s).params = s.params := by unfold enterPayload; dsimp only; split <;> rfl
@[simp] theorem enterPayload_cfg : (enterPayload s).cfg = s.cfg := by unfold enterPayload; dsimp only; split <;> rfl
@[simp] theorem enterPayload_cls : (enterPayload s).cls = s.cls := by unfold enterPayload; dsimp only; split <;> rfl
@[simp] theorem enterPayload_err : (enterPayload s).err = s.err := by unfold enterPayload; dsimp only; split <;> rfl
@[simp] theorem enterPayload_mem : (enterPayload s).mem = s.mem := by unfold enterPayload; dsimp only; split <;> rfl
@[simp] theorem enterPayload_port : (enterPayload s).port = s.port := by unfold enterPayload; dsimp only; split <;> rfl
@[simp] theorem enterPayload_responses : (enterPayload s).responses = s.responses := by unfold enterPayload; dsimp only; split <;> rfl


/-- What entering the payload does (42_reassembler.md R185): the bookkeeping, and the end of the call if there is
nothing to read. -/
theorem enterPayload_call : (enterPayload s).call =
    if s.cfg.sync ≠ .tone ∧ s.cfg.payloadLen = 0 then
      { s.call with syncPos := s.call.pos, syncBit := s.call.bitcnt, left := s.call.bitn, fsm := .done }
    else { s.call with fsm := .payload, syncPos := s.call.pos, syncBit := s.call.bitcnt } := by
  unfold enterPayload
  dsimp only
  split <;> rfl

@[simp] theorem assembleBit_params (b : Bool) : (assembleBit b s).params = s.params := by unfold assembleBit; split <;> simp
@[simp] theorem assembleBit_cfg (b : Bool) : (assembleBit b s).cfg = s.cfg := by unfold assembleBit; split <;> simp
@[simp] theorem assembleBit_cls (b : Bool) : (assembleBit b s).cls = s.cls := by unfold assembleBit; split <;> simp
@[simp] theorem assembleBit_err (b : Bool) : (assembleBit b s).err = s.err := by unfold assembleBit; split <;> simp
@[simp] theorem assembleBit_port (b : Bool) : (assembleBit b s).port = s.port := by unfold assembleBit; split <;> simp
@[simp] theorem assembleBit_responses (b : Bool) : (assembleBit b s).responses = s.responses := by unfold assembleBit; split <;> simp


/-- A bit that does not complete a byte (42_reassembler.md R181). -/
theorem assembleBit_partial (b : Bool) (h : s.call.bitn.toNat + 1 ≠ 8) : assembleBit b s =
    s.withCall { s.call with acc := shiftIn s.call.acc b, bitn := s.call.bitn + 1 } := by
  simp [assembleBit, h]

/-- The eighth bit (42_reassembler.md R181): the byte is stored if there is room. -/
theorem assembleBit_complete (b : Bool) (h : s.call.bitn.toNat + 1 = 8) :
    (assembleBit b s).call = { s.call with
      msgovf := s.call.msgovf || !decide (s.mem.msg.length < s.params.msgCap), acc := 0, bitn := 0 } ∧
    (assembleBit b s).mem =
      if s.mem.msg.length < s.params.msgCap then
        { s.mem with msg := s.mem.msg ++ [shiftIn s.call.acc b] }
      else s.mem := by
  simp [assembleBit, h, storeByte_call, storeByte_mem]

@[simp] theorem payloadBit_params (b : Bool) : (payloadBit b s).params = s.params := by unfold payloadBit; dsimp only; split <;> simp
@[simp] theorem payloadBit_cfg (b : Bool) : (payloadBit b s).cfg = s.cfg := by unfold payloadBit; dsimp only; split <;> simp
@[simp] theorem payloadBit_cls (b : Bool) : (payloadBit b s).cls = s.cls := by unfold payloadBit; dsimp only; split <;> simp
@[simp] theorem payloadBit_err (b : Bool) : (payloadBit b s).err = s.err := by unfold payloadBit; dsimp only; split <;> simp
@[simp] theorem payloadBit_port (b : Bool) : (payloadBit b s).port = s.port := by unfold payloadBit; dsimp only; split <;> simp
@[simp] theorem payloadBit_responses (b : Bool) : (payloadBit b s).responses = s.responses := by unfold payloadBit; dsimp only; split <;> simp


/-- The buffers after a payload bit are those after assembling it: the end of the call touches none. -/
@[simp] theorem payloadBit_mem (b : Bool) : (payloadBit b s).mem = (assembleBit b s).mem := by
  unfold payloadBit
  dsimp only
  split <;> simp

@[simp] theorem searchBit_params (b : Bool) : (searchBit b s).params = s.params := by unfold searchBit; dsimp only; split <;> simp
@[simp] theorem searchBit_cfg (b : Bool) : (searchBit b s).cfg = s.cfg := by unfold searchBit; dsimp only; split <;> simp
@[simp] theorem searchBit_cls (b : Bool) : (searchBit b s).cls = s.cls := by unfold searchBit; dsimp only; split <;> simp
@[simp] theorem searchBit_err (b : Bool) : (searchBit b s).err = s.err := by unfold searchBit; dsimp only; split <;> simp
@[simp] theorem searchBit_mem (b : Bool) : (searchBit b s).mem = s.mem := by unfold searchBit; dsimp only; split <;> simp
@[simp] theorem searchBit_port (b : Bool) : (searchBit b s).port = s.port := by unfold searchBit; dsimp only; split <;> simp
@[simp] theorem searchBit_responses (b : Bool) : (searchBit b s).responses = s.responses := by unfold searchBit; dsimp only; split <;> simp

@[simp] theorem emitBit_params (b : Bool) : (emitBit b s).params = s.params := by unfold emitBit; split <;> simp
@[simp] theorem emitBit_cfg (b : Bool) : (emitBit b s).cfg = s.cfg := by unfold emitBit; split <;> simp
@[simp] theorem emitBit_cls (b : Bool) : (emitBit b s).cls = s.cls := by unfold emitBit; split <;> simp
@[simp] theorem emitBit_err (b : Bool) : (emitBit b s).err = s.err := by unfold emitBit; split <;> simp
@[simp] theorem emitBit_port (b : Bool) : (emitBit b s).port = s.port := by unfold emitBit; split <;> simp
@[simp] theorem emitBit_responses (b : Bool) : (emitBit b s).responses = s.responses := by unfold emitBit; split <;> simp


theorem emitBit_payload (b : Bool) (h : s.call.fsm = .payload) :
    emitBit b s = payloadBit b (storeRawBit b s) := by
  simp [emitBit, h]

theorem emitBit_search (b : Bool) (h : s.call.fsm = .search) :
    emitBit b s = searchBit b (storeRawBit b s) := by
  simp [emitBit, h]

/-! Field by field: the parts of the per-call state that an operation does not touch. -/

@[simp] theorem enterPayload_call_pos : (enterPayload s).call.pos = s.call.pos := by rw [enterPayload_call]; split <;> rfl
@[simp] theorem enterPayload_call_wsum : (enterPayload s).call.wsum = s.call.wsum := by rw [enterPayload_call]; split <;> rfl
@[simp] theorem enterPayload_call_wcnt : (enterPayload s).call.wcnt = s.call.wcnt := by rw [enterPayload_call]; split <;> rfl
@[simp] theorem enterPayload_call_sr : (enterPayload s).call.sr = s.call.sr := by rw [enterPayload_call]; split <;> rfl
@[simp] theorem enterPayload_call_bitcnt : (enterPayload s).call.bitcnt = s.call.bitcnt := by rw [enterPayload_call]; split <;> rfl
@[simp] theorem enterPayload_call_acc : (enterPayload s).call.acc = s.call.acc := by rw [enterPayload_call]; split <;> rfl
@[simp] theorem enterPayload_call_bitn : (enterPayload s).call.bitn = s.call.bitn := by rw [enterPayload_call]; split <;> rfl
@[simp] theorem enterPayload_call_nopre : (enterPayload s).call.nopre = s.call.nopre := by rw [enterPayload_call]; split <;> rfl
@[simp] theorem enterPayload_call_short : (enterPayload s).call.short = s.call.short := by rw [enterPayload_call]; split <;> rfl
@[simp] theorem enterPayload_call_rawovf : (enterPayload s).call.rawovf = s.call.rawovf := by rw [enterPayload_call]; split <;> rfl
@[simp] theorem enterPayload_call_msgovf : (enterPayload s).call.msgovf = s.call.msgovf := by rw [enterPayload_call]; split <;> rfl
@[simp] theorem enterPayload_call_glitchCnt : (enterPayload s).call.glitchCnt = s.call.glitchCnt := by rw [enterPayload_call]; split <;> rfl
@[simp] theorem enterPayload_call_skipCnt : (enterPayload s).call.skipCnt = s.call.skipCnt := by rw [enterPayload_call]; split <;> rfl
@[simp] theorem enterPayload_call_dropCnt : (enterPayload s).call.dropCnt = s.call.dropCnt := by rw [enterPayload_call]; split <;> rfl
@[simp] theorem enterPayload_call_warmCnt : (enterPayload s).call.warmCnt = s.call.warmCnt := by rw [enterPayload_call]; split <;> rfl

@[simp] theorem storeByte_call_fsm (x : Byte) : (storeByte x s).call.fsm = s.call.fsm := by rw [storeByte_call]
@[simp] theorem storeByte_call_pos (x : Byte) : (storeByte x s).call.pos = s.call.pos := by rw [storeByte_call]
@[simp] theorem storeByte_call_wsum (x : Byte) : (storeByte x s).call.wsum = s.call.wsum := by rw [storeByte_call]
@[simp] theorem storeByte_call_wcnt (x : Byte) : (storeByte x s).call.wcnt = s.call.wcnt := by rw [storeByte_call]
@[simp] theorem storeByte_call_sr (x : Byte) : (storeByte x s).call.sr = s.call.sr := by rw [storeByte_call]
@[simp] theorem storeByte_call_bitcnt (x : Byte) : (storeByte x s).call.bitcnt = s.call.bitcnt := by rw [storeByte_call]
@[simp] theorem storeByte_call_acc (x : Byte) : (storeByte x s).call.acc = s.call.acc := by rw [storeByte_call]
@[simp] theorem storeByte_call_bitn (x : Byte) : (storeByte x s).call.bitn = s.call.bitn := by rw [storeByte_call]
@[simp] theorem storeByte_call_syncPos (x : Byte) : (storeByte x s).call.syncPos = s.call.syncPos := by rw [storeByte_call]
@[simp] theorem storeByte_call_syncBit (x : Byte) : (storeByte x s).call.syncBit = s.call.syncBit := by rw [storeByte_call]
@[simp] theorem storeByte_call_nopre (x : Byte) : (storeByte x s).call.nopre = s.call.nopre := by rw [storeByte_call]
@[simp] theorem storeByte_call_short (x : Byte) : (storeByte x s).call.short = s.call.short := by rw [storeByte_call]
@[simp] theorem storeByte_call_rawovf (x : Byte) : (storeByte x s).call.rawovf = s.call.rawovf := by rw [storeByte_call]
@[simp] theorem storeByte_call_left (x : Byte) : (storeByte x s).call.left = s.call.left := by rw [storeByte_call]
@[simp] theorem storeByte_call_glitchCnt (x : Byte) : (storeByte x s).call.glitchCnt = s.call.glitchCnt := by rw [storeByte_call]
@[simp] theorem storeByte_call_skipCnt (x : Byte) : (storeByte x s).call.skipCnt = s.call.skipCnt := by rw [storeByte_call]
@[simp] theorem storeByte_call_dropCnt (x : Byte) : (storeByte x s).call.dropCnt = s.call.dropCnt := by rw [storeByte_call]
@[simp] theorem storeByte_call_warmCnt (x : Byte) : (storeByte x s).call.warmCnt = s.call.warmCnt := by rw [storeByte_call]

@[simp] theorem storeRawBit_call_fsm (b : Bool) : (storeRawBit b s).call.fsm = s.call.fsm := by rw [storeRawBit_call]
@[simp] theorem storeRawBit_call_pos (b : Bool) : (storeRawBit b s).call.pos = s.call.pos := by rw [storeRawBit_call]
@[simp] theorem storeRawBit_call_wsum (b : Bool) : (storeRawBit b s).call.wsum = s.call.wsum := by rw [storeRawBit_call]
@[simp] theorem storeRawBit_call_wcnt (b : Bool) : (storeRawBit b s).call.wcnt = s.call.wcnt := by rw [storeRawBit_call]
@[simp] theorem storeRawBit_call_sr (b : Bool) : (storeRawBit b s).call.sr = s.call.sr := by rw [storeRawBit_call]
@[simp] theorem storeRawBit_call_acc (b : Bool) : (storeRawBit b s).call.acc = s.call.acc := by rw [storeRawBit_call]
@[simp] theorem storeRawBit_call_bitn (b : Bool) : (storeRawBit b s).call.bitn = s.call.bitn := by rw [storeRawBit_call]
@[simp] theorem storeRawBit_call_syncPos (b : Bool) : (storeRawBit b s).call.syncPos = s.call.syncPos := by rw [storeRawBit_call]
@[simp] theorem storeRawBit_call_syncBit (b : Bool) : (storeRawBit b s).call.syncBit = s.call.syncBit := by rw [storeRawBit_call]
@[simp] theorem storeRawBit_call_nopre (b : Bool) : (storeRawBit b s).call.nopre = s.call.nopre := by rw [storeRawBit_call]
@[simp] theorem storeRawBit_call_short (b : Bool) : (storeRawBit b s).call.short = s.call.short := by rw [storeRawBit_call]
@[simp] theorem storeRawBit_call_msgovf (b : Bool) : (storeRawBit b s).call.msgovf = s.call.msgovf := by rw [storeRawBit_call]
@[simp] theorem storeRawBit_call_left (b : Bool) : (storeRawBit b s).call.left = s.call.left := by rw [storeRawBit_call]
@[simp] theorem storeRawBit_call_glitchCnt (b : Bool) : (storeRawBit b s).call.glitchCnt = s.call.glitchCnt := by rw [storeRawBit_call]
@[simp] theorem storeRawBit_call_skipCnt (b : Bool) : (storeRawBit b s).call.skipCnt = s.call.skipCnt := by rw [storeRawBit_call]
@[simp] theorem storeRawBit_call_dropCnt (b : Bool) : (storeRawBit b s).call.dropCnt = s.call.dropCnt := by rw [storeRawBit_call]
@[simp] theorem storeRawBit_call_warmCnt (b : Bool) : (storeRawBit b s).call.warmCnt = s.call.warmCnt := by rw [storeRawBit_call]

@[simp] theorem assembleBit_call_fsm (b : Bool) : (assembleBit b s).call.fsm = s.call.fsm := by unfold assembleBit; split <;> simp
@[simp] theorem assembleBit_call_pos (b : Bool) : (assembleBit b s).call.pos = s.call.pos := by unfold assembleBit; split <;> simp
@[simp] theorem assembleBit_call_wsum (b : Bool) : (assembleBit b s).call.wsum = s.call.wsum := by unfold assembleBit; split <;> simp
@[simp] theorem assembleBit_call_wcnt (b : Bool) : (assembleBit b s).call.wcnt = s.call.wcnt := by unfold assembleBit; split <;> simp
@[simp] theorem assembleBit_call_sr (b : Bool) : (assembleBit b s).call.sr = s.call.sr := by unfold assembleBit; split <;> simp
@[simp] theorem assembleBit_call_bitcnt (b : Bool) : (assembleBit b s).call.bitcnt = s.call.bitcnt := by unfold assembleBit; split <;> simp
@[simp] theorem assembleBit_call_syncPos (b : Bool) : (assembleBit b s).call.syncPos = s.call.syncPos := by unfold assembleBit; split <;> simp
@[simp] theorem assembleBit_call_syncBit (b : Bool) : (assembleBit b s).call.syncBit = s.call.syncBit := by unfold assembleBit; split <;> simp
@[simp] theorem assembleBit_call_nopre (b : Bool) : (assembleBit b s).call.nopre = s.call.nopre := by unfold assembleBit; split <;> simp
@[simp] theorem assembleBit_call_short (b : Bool) : (assembleBit b s).call.short = s.call.short := by unfold assembleBit; split <;> simp
@[simp] theorem assembleBit_call_rawovf (b : Bool) : (assembleBit b s).call.rawovf = s.call.rawovf := by unfold assembleBit; split <;> simp
@[simp] theorem assembleBit_call_left (b : Bool) : (assembleBit b s).call.left = s.call.left := by unfold assembleBit; split <;> simp
@[simp] theorem assembleBit_call_glitchCnt (b : Bool) : (assembleBit b s).call.glitchCnt = s.call.glitchCnt := by unfold assembleBit; split <;> simp
@[simp] theorem assembleBit_call_skipCnt (b : Bool) : (assembleBit b s).call.skipCnt = s.call.skipCnt := by unfold assembleBit; split <;> simp
@[simp] theorem assembleBit_call_dropCnt (b : Bool) : (assembleBit b s).call.dropCnt = s.call.dropCnt := by unfold assembleBit; split <;> simp
@[simp] theorem assembleBit_call_warmCnt (b : Bool) : (assembleBit b s).call.warmCnt = s.call.warmCnt := by unfold assembleBit; split <;> simp

@[simp] theorem payloadBit_call_pos (b : Bool) : (payloadBit b s).call.pos = s.call.pos := by unfold payloadBit; dsimp only; split <;> simp
@[simp] theorem payloadBit_call_wsum (b : Bool) : (payloadBit b s).call.wsum = s.call.wsum := by unfold payloadBit; dsimp only; split <;> simp
@[simp] theorem payloadBit_call_wcnt (b : Bool) : (payloadBit b s).call.wcnt = s.call.wcnt := by unfold payloadBit; dsimp only; split <;> simp
@[simp] theorem payloadBit_call_sr (b : Bool) : (payloadBit b s).call.sr = s.call.sr := by unfold payloadBit; dsimp only; split <;> simp
@[simp] theorem payloadBit_call_bitcnt (b : Bool) : (payloadBit b s).call.bitcnt = s.call.bitcnt := by unfold payloadBit; dsimp only; split <;> simp
@[simp] theorem payloadBit_call_syncPos (b : Bool) : (payloadBit b s).call.syncPos = s.call.syncPos := by unfold payloadBit; dsimp only; split <;> simp
@[simp] theorem payloadBit_call_syncBit (b : Bool) : (payloadBit b s).call.syncBit = s.call.syncBit := by unfold payloadBit; dsimp only; split <;> simp
@[simp] theorem payloadBit_call_nopre (b : Bool) : (payloadBit b s).call.nopre = s.call.nopre := by unfold payloadBit; dsimp only; split <;> simp
@[simp] theorem payloadBit_call_short (b : Bool) : (payloadBit b s).call.short = s.call.short := by unfold payloadBit; dsimp only; split <;> simp
@[simp] theorem payloadBit_call_rawovf (b : Bool) : (payloadBit b s).call.rawovf = s.call.rawovf := by unfold payloadBit; dsimp only; split <;> simp
@[simp] theorem payloadBit_call_glitchCnt (b : Bool) : (payloadBit b s).call.glitchCnt = s.call.glitchCnt := by unfold payloadBit; dsimp only; split <;> simp
@[simp] theorem payloadBit_call_skipCnt (b : Bool) : (payloadBit b s).call.skipCnt = s.call.skipCnt := by unfold payloadBit; dsimp only; split <;> simp
@[simp] theorem payloadBit_call_dropCnt (b : Bool) : (payloadBit b s).call.dropCnt = s.call.dropCnt := by unfold payloadBit; dsimp only; split <;> simp
@[simp] theorem payloadBit_call_warmCnt (b : Bool) : (payloadBit b s).call.warmCnt = s.call.warmCnt := by unfold payloadBit; dsimp only; split <;> simp

@[simp] theorem searchBit_call_pos (b : Bool) : (searchBit b s).call.pos = s.call.pos := by unfold searchBit; dsimp only; split <;> simp
@[simp] theorem searchBit_call_wsum (b : Bool) : (searchBit b s).call.wsum = s.call.wsum := by unfold searchBit; dsimp only; split <;> simp
@[simp] theorem searchBit_call_wcnt (b : Bool) : (searchBit b s).call.wcnt = s.call.wcnt := by unfold searchBit; dsimp only; split <;> simp
@[simp] theorem searchBit_call_bitcnt (b : Bool) : (searchBit b s).call.bitcnt = s.call.bitcnt := by unfold searchBit; dsimp only; split <;> simp
@[simp] theorem searchBit_call_acc (b : Bool) : (searchBit b s).call.acc = s.call.acc := by unfold searchBit; dsimp only; split <;> simp
@[simp] theorem searchBit_call_bitn (b : Bool) : (searchBit b s).call.bitn = s.call.bitn := by unfold searchBit; dsimp only; split <;> simp
@[simp] theorem searchBit_call_nopre (b : Bool) : (searchBit b s).call.nopre = s.call.nopre := by unfold searchBit; dsimp only; split <;> simp
@[simp] theorem searchBit_call_short (b : Bool) : (searchBit b s).call.short = s.call.short := by unfold searchBit; dsimp only; split <;> simp
@[simp] theorem searchBit_call_rawovf (b : Bool) : (searchBit b s).call.rawovf = s.call.rawovf := by unfold searchBit; dsimp only; split <;> simp
@[simp] theorem searchBit_call_msgovf (b : Bool) : (searchBit b s).call.msgovf = s.call.msgovf := by unfold searchBit; dsimp only; split <;> simp
@[simp] theorem searchBit_call_glitchCnt (b : Bool) : (searchBit b s).call.glitchCnt = s.call.glitchCnt := by unfold searchBit; dsimp only; split <;> simp
@[simp] theorem searchBit_call_skipCnt (b : Bool) : (searchBit b s).call.skipCnt = s.call.skipCnt := by unfold searchBit; dsimp only; split <;> simp
@[simp] theorem searchBit_call_dropCnt (b : Bool) : (searchBit b s).call.dropCnt = s.call.dropCnt := by unfold searchBit; dsimp only; split <;> simp
@[simp] theorem searchBit_call_warmCnt (b : Bool) : (searchBit b s).call.warmCnt = s.call.warmCnt := by unfold searchBit; dsimp only; split <;> simp

@[simp] theorem emitBit_call_pos (b : Bool) : (emitBit b s).call.pos = s.call.pos := by unfold emitBit; split <;> simp
@[simp] theorem emitBit_call_wsum (b : Bool) : (emitBit b s).call.wsum = s.call.wsum := by unfold emitBit; split <;> simp
@[simp] theorem emitBit_call_wcnt (b : Bool) : (emitBit b s).call.wcnt = s.call.wcnt := by unfold emitBit; split <;> simp
@[simp] theorem emitBit_call_nopre (b : Bool) : (emitBit b s).call.nopre = s.call.nopre := by unfold emitBit; split <;> simp
@[simp] theorem emitBit_call_short (b : Bool) : (emitBit b s).call.short = s.call.short := by unfold emitBit; split <;> simp
@[simp] theorem emitBit_call_glitchCnt (b : Bool) : (emitBit b s).call.glitchCnt = s.call.glitchCnt := by unfold emitBit; split <;> simp
@[simp] theorem emitBit_call_skipCnt (b : Bool) : (emitBit b s).call.skipCnt = s.call.skipCnt := by unfold emitBit; split <;> simp
@[simp] theorem emitBit_call_dropCnt (b : Bool) : (emitBit b s).call.dropCnt = s.call.dropCnt := by unfold emitBit; split <;> simp
@[simp] theorem emitBit_call_warmCnt (b : Bool) : (emitBit b s).call.warmCnt = s.call.warmCnt := by unfold emitBit; split <;> simp

@[simp] theorem emitBit_call_bitcnt (b : Bool) : (emitBit b s).call.bitcnt = bump32 s.call.bitcnt := by
  unfold emitBit
  split <;> simp [storeRawBit_call]

@[simp] theorem emitBit_call_rawovf (b : Bool) : (emitBit b s).call.rawovf =
    (s.call.rawovf || !decide (s.mem.raw.length < s.params.rawCap)) := by
  unfold emitBit
  split <;> simp [storeRawBit_call]

@[simp] theorem storeByte_mem_raw (x : Byte) : (storeByte x s).mem.raw = s.mem.raw := by
  rw [storeByte_mem]
  split <;> rfl

@[simp] theorem storeRawBit_mem_msg (b : Bool) : (storeRawBit b s).mem.msg = s.mem.msg := by
  rw [storeRawBit_mem]
  split <;> rfl

@[simp] theorem assembleBit_mem_raw (b : Bool) : (assembleBit b s).mem.raw = s.mem.raw := by
  unfold assembleBit
  split <;> simp

/-- What emitting a bit does to `RAW`, whatever consumes the bit (42_reassembler.md R181). -/
theorem emitBit_mem_raw (b : Bool) : (emitBit b s).mem.raw =
    if s.mem.raw.length < s.params.rawCap then s.mem.raw ++ [b] else s.mem.raw := by
  unfold emitBit
  split <;> simp [storeRawBit_mem] <;> split <;> rfl

/-! A bit in `PAYLOAD`: the matcher and the sync bookkeeping are untouched, and the call ends exactly when pattern mode
has its `L` bits (42_reassembler.md R181, 41_synchronizer.md R162). -/

theorem emitBit_payload_sr (b : Bool) (h : s.call.fsm = .payload) : (emitBit b s).call.sr = s.call.sr := by
  simp [emitBit_payload s b h]

theorem emitBit_payload_syncPos (b : Bool) (h : s.call.fsm = .payload) :
    (emitBit b s).call.syncPos = s.call.syncPos := by
  simp [emitBit_payload s b h]

theorem emitBit_payload_syncBit (b : Bool) (h : s.call.fsm = .payload) :
    (emitBit b s).call.syncBit = s.call.syncBit := by
  simp [emitBit_payload s b h]

theorem emitBit_payload_fsm (b : Bool) (h : s.call.fsm = .payload) : (emitBit b s).call.fsm =
    if s.cfg.sync = .pat ∧ (bump32 s.call.bitcnt).toNat = s.call.syncBit.toNat + s.cfg.payloadLen then .done
    else .payload := by
  simp only [emitBit_payload s b h, payloadBit, storeRawBit_cfg, storeRawBit_call]
  split <;> simp [h]

theorem emitBit_payload_left (b : Bool) (h : s.call.fsm = .payload) : (emitBit b s).call.left =
    if s.cfg.sync = .pat ∧ (bump32 s.call.bitcnt).toNat = s.call.syncBit.toNat + s.cfg.payloadLen then
      (emitBit b s).call.bitn
    else s.call.left := by
  simp only [emitBit_payload s b h, payloadBit, storeRawBit_cfg, storeRawBit_call]
  split <;> simp

/-! A bit in `SEARCH`: the reassembler is untouched (42_reassembler.md R181). -/

theorem emitBit_search_bitn (b : Bool) (h : s.call.fsm = .search) : (emitBit b s).call.bitn = s.call.bitn := by
  simp [emitBit_search s b h]

theorem emitBit_search_acc (b : Bool) (h : s.call.fsm = .search) : (emitBit b s).call.acc = s.call.acc := by
  simp [emitBit_search s b h]

theorem emitBit_search_msg (b : Bool) (h : s.call.fsm = .search) : (emitBit b s).mem.msg = s.mem.msg := by
  simp [emitBit_search s b h]

/-! The reassembler's part of a bit in `PAYLOAD` (42_reassembler.md R181 to R183): an eighth bit completes a byte, which is
stored if there is room. -/

theorem assembleBit_msg (b : Bool) : (assembleBit b s).mem.msg =
    if s.call.bitn.toNat + 1 = 8 ∧ s.mem.msg.length < s.params.msgCap then
      s.mem.msg ++ [shiftIn s.call.acc b]
    else s.mem.msg := by
  by_cases h : s.call.bitn.toNat + 1 = 8
  · rw [(assembleBit_complete s b h).2]
    split <;> simp_all
  · rw [assembleBit_partial s b h]
    simp [h]

theorem assembleBit_bitn (b : Bool) : (assembleBit b s).call.bitn.toNat =
    if s.call.bitn.toNat + 1 = 8 then 0 else s.call.bitn.toNat + 1 := by
  by_cases h : s.call.bitn.toNat + 1 = 8
  · rw [(assembleBit_complete s b h).1]
    simp [h]
  · rw [assembleBit_partial s b h]
    have := s.call.bitn.isLt
    simp [h]
    omega

theorem assembleBit_acc (b : Bool) : (assembleBit b s).call.acc =
    if s.call.bitn.toNat + 1 = 8 then 0 else shiftIn s.call.acc b := by
  by_cases h : s.call.bitn.toNat + 1 = 8
  · rw [(assembleBit_complete s b h).1]
    simp [h]
  · rw [assembleBit_partial s b h]
    simp [h]

theorem assembleBit_msgovf (b : Bool) : (assembleBit b s).call.msgovf =
    (s.call.msgovf ||
      (decide (s.call.bitn.toNat + 1 = 8) && !decide (s.mem.msg.length < s.params.msgCap))) := by
  by_cases h : s.call.bitn.toNat + 1 = 8
  · rw [(assembleBit_complete s b h).1]
    simp [h]
  · rw [assembleBit_partial s b h]
    simp [h]

@[simp] theorem payloadBit_bitn (b : Bool) : (payloadBit b s).call.bitn = (assembleBit b s).call.bitn := by
  unfold payloadBit
  dsimp only
  split <;> simp

@[simp] theorem payloadBit_acc (b : Bool) : (payloadBit b s).call.acc = (assembleBit b s).call.acc := by
  unfold payloadBit
  dsimp only
  split <;> simp

@[simp] theorem payloadBit_msgovf (b : Bool) :
    (payloadBit b s).call.msgovf = (assembleBit b s).call.msgovf := by
  unfold payloadBit
  dsimp only
  split <;> simp

theorem emitBit_payload_msg (b : Bool) (h : s.call.fsm = .payload) : (emitBit b s).mem.msg =
    if s.call.bitn.toNat + 1 = 8 ∧ s.mem.msg.length < s.params.msgCap then
      s.mem.msg ++ [shiftIn s.call.acc b]
    else s.mem.msg := by
  simp [emitBit_payload s b h, assembleBit_msg]

theorem emitBit_payload_bitn (b : Bool) (h : s.call.fsm = .payload) : (emitBit b s).call.bitn.toNat =
    if s.call.bitn.toNat + 1 = 8 then 0 else s.call.bitn.toNat + 1 := by
  simp [emitBit_payload s b h, assembleBit_bitn]

theorem emitBit_payload_acc (b : Bool) (h : s.call.fsm = .payload) : (emitBit b s).call.acc =
    if s.call.bitn.toNat + 1 = 8 then 0 else shiftIn s.call.acc b := by
  simp [emitBit_payload s b h, assembleBit_acc]

theorem emitBit_payload_msgovf (b : Bool) (h : s.call.fsm = .payload) : (emitBit b s).call.msgovf =
    (s.call.msgovf ||
      (decide (s.call.bitn.toNat + 1 = 8) && !decide (s.mem.msg.length < s.params.msgCap))) := by
  simp [emitBit_payload s b h, assembleBit_msgovf]

end Sys2Proof.Machine
end

