-- ==== Sys2Proof/Laws/Meanings.lean ====
section
/-! SUPPORT. What the operations of the classifier, the synchronizer, the orchestrator and the register access
change and what they leave alone. -/

namespace Sys2Proof.Machine

variable (s : State)

@[simp] theorem classifyUpdate_params (v : Half) : (classifyUpdate v s).params = s.params := by unfold classifyUpdate; (repeat' split) <;> simp
@[simp] theorem classifyUpdate_cfg (v : Half) : (classifyUpdate v s).cfg = s.cfg := by unfold classifyUpdate; (repeat' split) <;> simp
@[simp] theorem classifyUpdate_mem (v : Half) : (classifyUpdate v s).mem = s.mem := by unfold classifyUpdate; (repeat' split) <;> simp
@[simp] theorem classifyUpdate_port (v : Half) : (classifyUpdate v s).port = s.port := by unfold classifyUpdate; (repeat' split) <;> simp
@[simp] theorem classifyUpdate_responses (v : Half) : (classifyUpdate v s).responses = s.responses := by unfold classifyUpdate; (repeat' split) <;> simp

/-- `Classify` touches the warm-up count alone of the per-call state (40_classifier.md R110, R117, R121). -/
theorem classifyUpdate_call (v : Half) :
    (classifyUpdate v s).call = s.call ∨
      (classifyUpdate v s).call = { s.call with warmCnt := bump16 s.call.warmCnt } := by
  unfold classifyUpdate
  (repeat' split) <;> simp

@[simp] theorem classifyUpdate_fsm (v : Half) : (classifyUpdate v s).call.fsm = s.call.fsm := by
  rcases classifyUpdate_call s v with h | h <;> rw [h]

@[simp] theorem calibrate_params (v : Half) : (calibrate v s).params = s.params := by unfold calibrate; dsimp only; split <;> simp
@[simp] theorem calibrate_cfg (v : Half) : (calibrate v s).cfg = s.cfg := by unfold calibrate; dsimp only; split <;> simp
@[simp] theorem calibrate_call (v : Half) : (calibrate v s).call = s.call := by unfold calibrate; dsimp only; split <;> simp
@[simp] theorem calibrate_err (v : Half) : (calibrate v s).err = s.err := by unfold calibrate; dsimp only; split <;> simp
@[simp] theorem calibrate_mem (v : Half) : (calibrate v s).mem = s.mem := by unfold calibrate; dsimp only; split <;> simp
@[simp] theorem calibrate_port (v : Half) : (calibrate v s).port = s.port := by unfold calibrate; dsimp only; split <;> simp
@[simp] theorem calibrate_responses (v : Half) : (calibrate v s).responses = s.responses := by unfold calibrate; dsimp only; split <;> simp

@[simp] theorem decidePresence_params : (decidePresence s).params = s.params := by unfold decidePresence; split <;> simp
@[simp] theorem decidePresence_cfg : (decidePresence s).cfg = s.cfg := by unfold decidePresence; split <;> simp
@[simp] theorem decidePresence_cls : (decidePresence s).cls = s.cls := by unfold decidePresence; split <;> simp
@[simp] theorem decidePresence_err : (decidePresence s).err = s.err := by unfold decidePresence; split <;> simp
@[simp] theorem decidePresence_mem : (decidePresence s).mem = s.mem := by unfold decidePresence; split <;> simp
@[simp] theorem decidePresence_port : (decidePresence s).port = s.port := by unfold decidePresence; split <;> simp
@[simp] theorem decidePresence_responses : (decidePresence s).responses = s.responses := by unfold decidePresence; split <;> simp

@[simp] theorem windowCheck_params : (windowCheck s).params = s.params := by unfold windowCheck; split <;> simp
@[simp] theorem windowCheck_cfg : (windowCheck s).cfg = s.cfg := by unfold windowCheck; split <;> simp
@[simp] theorem windowCheck_cls : (windowCheck s).cls = s.cls := by unfold windowCheck; split <;> simp
@[simp] theorem windowCheck_err : (windowCheck s).err = s.err := by unfold windowCheck; split <;> simp
@[simp] theorem windowCheck_mem : (windowCheck s).mem = s.mem := by unfold windowCheck; split <;> simp
@[simp] theorem windowCheck_port : (windowCheck s).port = s.port := by unfold windowCheck; split <;> simp
@[simp] theorem windowCheck_responses : (windowCheck s).responses = s.responses := by unfold windowCheck; split <;> simp

@[simp] theorem payloadCheck_params : (payloadCheck s).params = s.params := by unfold payloadCheck; split <;> simp
@[simp] theorem payloadCheck_cfg : (payloadCheck s).cfg = s.cfg := by unfold payloadCheck; split <;> simp
@[simp] theorem payloadCheck_cls : (payloadCheck s).cls = s.cls := by unfold payloadCheck; split <;> simp
@[simp] theorem payloadCheck_err : (payloadCheck s).err = s.err := by unfold payloadCheck; split <;> simp
@[simp] theorem payloadCheck_mem : (payloadCheck s).mem = s.mem := by unfold payloadCheck; split <;> simp
@[simp] theorem payloadCheck_port : (payloadCheck s).port = s.port := by unfold payloadCheck; split <;> simp
@[simp] theorem payloadCheck_responses : (payloadCheck s).responses = s.responses := by unfold payloadCheck; split <;> simp

@[simp] theorem posCheck_params : (posCheck s).params = s.params := by unfold posCheck; split <;> simp
@[simp] theorem posCheck_cfg : (posCheck s).cfg = s.cfg := by unfold posCheck; split <;> simp
@[simp] theorem posCheck_cls : (posCheck s).cls = s.cls := by unfold posCheck; split <;> simp
@[simp] theorem posCheck_err : (posCheck s).err = s.err := by unfold posCheck; split <;> simp
@[simp] theorem posCheck_mem : (posCheck s).mem = s.mem := by unfold posCheck; split <;> simp
@[simp] theorem posCheck_port : (posCheck s).port = s.port := by unfold posCheck; split <;> simp
@[simp] theorem posCheck_responses : (posCheck s).responses = s.responses := by unfold posCheck; split <;> simp

@[simp] theorem accumulate_params (v : Half) : (accumulate v s).params = s.params := rfl
@[simp] theorem accumulate_cfg (v : Half) : (accumulate v s).cfg = s.cfg := rfl
@[simp] theorem accumulate_cls (v : Half) : (accumulate v s).cls = s.cls := rfl
@[simp] theorem accumulate_err (v : Half) : (accumulate v s).err = s.err := rfl
@[simp] theorem accumulate_mem (v : Half) : (accumulate v s).mem = s.mem := rfl
@[simp] theorem accumulate_port (v : Half) : (accumulate v s).port = s.port := rfl
@[simp] theorem accumulate_responses (v : Half) : (accumulate v s).responses = s.responses := rfl

@[simp] theorem accumulate_call (v : Half) : (accumulate v s).call = { s.call with
    wsum := BitVec.ofInt 32 (s.call.wsum.toInt + sext16 v)
    wcnt := BitVec.ofNat 16 (s.call.wcnt.toNat + 1) } := rfl

@[simp] theorem windowSample_params (p : Nat) (v : Half) : (windowSample p v s).params = s.params := by unfold windowSample; split <;> simp
@[simp] theorem windowSample_cfg (p : Nat) (v : Half) : (windowSample p v s).cfg = s.cfg := by unfold windowSample; split <;> simp
@[simp] theorem windowSample_cls (p : Nat) (v : Half) : (windowSample p v s).cls = s.cls := by unfold windowSample; split <;> simp
@[simp] theorem windowSample_err (p : Nat) (v : Half) : (windowSample p v s).err = s.err := by unfold windowSample; split <;> simp
@[simp] theorem windowSample_mem (p : Nat) (v : Half) : (windowSample p v s).mem = s.mem := by unfold windowSample; split <;> simp
@[simp] theorem windowSample_port (p : Nat) (v : Half) : (windowSample p v s).port = s.port := by unfold windowSample; split <;> simp
@[simp] theorem windowSample_responses (p : Nat) (v : Half) : (windowSample p v s).responses = s.responses := by unfold windowSample; split <;> simp

@[simp] theorem windowSample_fsm (p : Nat) (v : Half) :
    (windowSample p v s).call.fsm = s.call.fsm := by
  unfold windowSample
  split <;> simp

@[simp] theorem classifyAndEmit_params (v : Half) : (classifyAndEmit v s).params = s.params := by unfold classifyAndEmit; (repeat' split) <;> simp
@[simp] theorem classifyAndEmit_cfg (v : Half) : (classifyAndEmit v s).cfg = s.cfg := by unfold classifyAndEmit; (repeat' split) <;> simp
@[simp] theorem classifyAndEmit_port (v : Half) : (classifyAndEmit v s).port = s.port := by unfold classifyAndEmit; (repeat' split) <;> simp
@[simp] theorem classifyAndEmit_responses (v : Half) : (classifyAndEmit v s).responses = s.responses := by unfold classifyAndEmit; (repeat' split) <;> simp

/-- Emission leaves the classifier's state and the errors as `Classify` left them (40_classifier.md R110). -/
@[simp] theorem classifyAndEmit_cls (v : Half) : (classifyAndEmit v s).cls = (classifyUpdate v s).cls := by
  unfold classifyAndEmit
  (repeat' split) <;> simp

@[simp] theorem classifyAndEmit_err (v : Half) : (classifyAndEmit v s).err = (classifyUpdate v s).err := by
  unfold classifyAndEmit
  (repeat' split) <;> simp

@[simp] theorem samplePower_params (p : Nat) (v : Half) : (samplePower p v s).params = s.params := by unfold samplePower; split <;> simp
@[simp] theorem samplePower_cfg (p : Nat) (v : Half) : (samplePower p v s).cfg = s.cfg := by unfold samplePower; split <;> simp
@[simp] theorem samplePower_port (p : Nat) (v : Half) : (samplePower p v s).port = s.port := by unfold samplePower; split <;> simp
@[simp] theorem samplePower_responses (p : Nat) (v : Half) : (samplePower p v s).responses = s.responses := by unfold samplePower; split <;> simp

@[simp] theorem sampleTone_params (f : Half) : (sampleTone f s).params = s.params := by unfold sampleTone; (repeat' split) <;> simp
@[simp] theorem sampleTone_cfg (f : Half) : (sampleTone f s).cfg = s.cfg := by unfold sampleTone; (repeat' split) <;> simp
@[simp] theorem sampleTone_cls (f : Half) : (sampleTone f s).cls = s.cls := by unfold sampleTone; (repeat' split) <;> simp
@[simp] theorem sampleTone_err (f : Half) : (sampleTone f s).err = s.err := by unfold sampleTone; (repeat' split) <;> simp
@[simp] theorem sampleTone_port (f : Half) : (sampleTone f s).port = s.port := by unfold sampleTone; (repeat' split) <;> simp
@[simp] theorem sampleTone_responses (f : Half) : (sampleTone f s).responses = s.responses := by unfold sampleTone; (repeat' split) <;> simp

@[simp] theorem sampleRunning_params (d : Half) : (sampleRunning d s).params = s.params := by unfold sampleRunning; split <;> simp
@[simp] theorem sampleRunning_cfg (d : Half) : (sampleRunning d s).cfg = s.cfg := by unfold sampleRunning; split <;> simp
@[simp] theorem sampleRunning_port (d : Half) : (sampleRunning d s).port = s.port := by unfold sampleRunning; split <;> simp
@[simp] theorem sampleRunning_responses (d : Half) : (sampleRunning d s).responses = s.responses := by unfold sampleRunning; split <;> simp

@[simp] theorem openCall_params : (openCall s).params = s.params := rfl
@[simp] theorem openCall_cfg : (openCall s).cfg = s.cfg := rfl
@[simp] theorem openCall_cls : (openCall s).cls = s.cls := rfl
@[simp] theorem openCall_err : (openCall s).err = s.err := rfl
@[simp] theorem openCall_port : (openCall s).port = s.port := rfl
@[simp] theorem openCall_responses : (openCall s).responses = s.responses := rfl

@[simp] theorem openCall_call : (openCall s).call = { Call.reset with fsm := .search } := rfl
@[simp] theorem openCall_mem : (openCall s).mem = Memory.reset := rfl

@[simp] theorem decideAtStart_params : (decideAtStart s).params = s.params := by unfold decideAtStart; (repeat' split) <;> simp
@[simp] theorem decideAtStart_cfg : (decideAtStart s).cfg = s.cfg := by unfold decideAtStart; (repeat' split) <;> simp
@[simp] theorem decideAtStart_cls : (decideAtStart s).cls = s.cls := by unfold decideAtStart; (repeat' split) <;> simp
@[simp] theorem decideAtStart_err : (decideAtStart s).err = s.err := by unfold decideAtStart; (repeat' split) <;> simp
@[simp] theorem decideAtStart_mem : (decideAtStart s).mem = s.mem := by unfold decideAtStart; (repeat' split) <;> simp
@[simp] theorem decideAtStart_port : (decideAtStart s).port = s.port := by unfold decideAtStart; (repeat' split) <;> simp
@[simp] theorem decideAtStart_responses : (decideAtStart s).responses = s.responses := by unfold decideAtStart; (repeat' split) <;> simp

@[simp] theorem endSearch_params : (endSearch s).params = s.params := by unfold endSearch; split <;> simp
@[simp] theorem endSearch_cfg : (endSearch s).cfg = s.cfg := by unfold endSearch; split <;> simp
@[simp] theorem endSearch_cls : (endSearch s).cls = s.cls := by unfold endSearch; split <;> simp
@[simp] theorem endSearch_err : (endSearch s).err = s.err := by unfold endSearch; split <;> simp
@[simp] theorem endSearch_mem : (endSearch s).mem = s.mem := by unfold endSearch; split <;> simp
@[simp] theorem endSearch_port : (endSearch s).port = s.port := by unfold endSearch; split <;> simp
@[simp] theorem endSearch_responses : (endSearch s).responses = s.responses := by unfold endSearch; split <;> simp

@[simp] theorem endPayload_params : (endPayload s).params = s.params := by unfold endPayload; split <;> simp
@[simp] theorem endPayload_cfg : (endPayload s).cfg = s.cfg := by unfold endPayload; split <;> simp
@[simp] theorem endPayload_cls : (endPayload s).cls = s.cls := by unfold endPayload; split <;> simp
@[simp] theorem endPayload_err : (endPayload s).err = s.err := by unfold endPayload; split <;> simp
@[simp] theorem endPayload_mem : (endPayload s).mem = s.mem := by unfold endPayload; split <;> simp
@[simp] theorem endPayload_port : (endPayload s).port = s.port := by unfold endPayload; split <;> simp
@[simp] theorem endPayload_responses : (endPayload s).responses = s.responses := by unfold endPayload; split <;> simp

@[simp] theorem writeCfg_params (r : CfgReg) (d : Half) : (writeCfg r d s).params = s.params := by unfold writeCfg; split <;> simp
@[simp] theorem writeCfg_call (r : CfgReg) (d : Half) : (writeCfg r d s).call = s.call := by unfold writeCfg; split <;> simp
@[simp] theorem writeCfg_err (r : CfgReg) (d : Half) : (writeCfg r d s).err = s.err := by unfold writeCfg; split <;> simp
@[simp] theorem writeCfg_mem (r : CfgReg) (d : Half) : (writeCfg r d s).mem = s.mem := by unfold writeCfg; split <;> simp
@[simp] theorem writeCfg_port (r : CfgReg) (d : Half) : (writeCfg r d s).port = s.port := by unfold writeCfg; split <;> simp
@[simp] theorem writeCfg_responses (r : CfgReg) (d : Half) : (writeCfg r d s).responses = s.responses := by unfold writeCfg; split <;> simp

@[simp] theorem writeCfg_cfg (r : CfgReg) (d : Half) : (writeCfg r d s).cfg = s.cfg.write r d := by
  unfold writeCfg
  split <;> simp

theorem writeCfg_cls (r : CfgReg) (d : Half) :
    (writeCfg r d s).cls = if clearsHistory r then Classifier.reset else s.cls := by
  unfold writeCfg
  split <;> simp

/-- Reading a configuration register after a write: the written one reads as written, the others are unchanged
(44_register_access.md R231). -/
theorem cfg_read_write (c : Cfg) (r r' : CfgReg) (d : Half) :
    (c.write r d).read r' = if r' = r then d else c.read r' := by
  cases r <;> cases r' <;> rfl

/-! Field by field: the parts of the per-call state that an operation does not touch. -/

@[simp] theorem decidePresence_call_pos : (decidePresence s).call.pos = s.call.pos := by unfold decidePresence; split <;> simp
@[simp] theorem decidePresence_call_wsum : (decidePresence s).call.wsum = s.call.wsum := by unfold decidePresence; split <;> simp
@[simp] theorem decidePresence_call_wcnt : (decidePresence s).call.wcnt = s.call.wcnt := by unfold decidePresence; split <;> simp
@[simp] theorem decidePresence_call_sr : (decidePresence s).call.sr = s.call.sr := by unfold decidePresence; split <;> simp
@[simp] theorem decidePresence_call_bitcnt : (decidePresence s).call.bitcnt = s.call.bitcnt := by unfold decidePresence; split <;> simp
@[simp] theorem decidePresence_call_acc : (decidePresence s).call.acc = s.call.acc := by unfold decidePresence; split <;> simp
@[simp] theorem decidePresence_call_bitn : (decidePresence s).call.bitn = s.call.bitn := by unfold decidePresence; split <;> simp
@[simp] theorem decidePresence_call_nopre : (decidePresence s).call.nopre = s.call.nopre := by unfold decidePresence; split <;> simp
@[simp] theorem decidePresence_call_short : (decidePresence s).call.short = s.call.short := by unfold decidePresence; split <;> simp
@[simp] theorem decidePresence_call_rawovf : (decidePresence s).call.rawovf = s.call.rawovf := by unfold decidePresence; split <;> simp
@[simp] theorem decidePresence_call_msgovf : (decidePresence s).call.msgovf = s.call.msgovf := by unfold decidePresence; split <;> simp
@[simp] theorem decidePresence_call_glitchCnt : (decidePresence s).call.glitchCnt = s.call.glitchCnt := by unfold decidePresence; split <;> simp
@[simp] theorem decidePresence_call_skipCnt : (decidePresence s).call.skipCnt = s.call.skipCnt := by unfold decidePresence; split <;> simp
@[simp] theorem decidePresence_call_dropCnt : (decidePresence s).call.dropCnt = s.call.dropCnt := by unfold decidePresence; split <;> simp
@[simp] theorem decidePresence_call_warmCnt : (decidePresence s).call.warmCnt = s.call.warmCnt := by unfold decidePresence; split <;> simp

@[simp] theorem windowCheck_call_pos : (windowCheck s).call.pos = s.call.pos := by unfold windowCheck; split <;> simp
@[simp] theorem windowCheck_call_wsum : (windowCheck s).call.wsum = s.call.wsum := by unfold windowCheck; split <;> simp
@[simp] theorem windowCheck_call_wcnt : (windowCheck s).call.wcnt = s.call.wcnt := by unfold windowCheck; split <;> simp
@[simp] theorem windowCheck_call_sr : (windowCheck s).call.sr = s.call.sr := by unfold windowCheck; split <;> simp
@[simp] theorem windowCheck_call_bitcnt : (windowCheck s).call.bitcnt = s.call.bitcnt := by unfold windowCheck; split <;> simp
@[simp] theorem windowCheck_call_acc : (windowCheck s).call.acc = s.call.acc := by unfold windowCheck; split <;> simp
@[simp] theorem windowCheck_call_bitn : (windowCheck s).call.bitn = s.call.bitn := by unfold windowCheck; split <;> simp
@[simp] theorem windowCheck_call_nopre : (windowCheck s).call.nopre = s.call.nopre := by unfold windowCheck; split <;> simp
@[simp] theorem windowCheck_call_short : (windowCheck s).call.short = s.call.short := by unfold windowCheck; split <;> simp
@[simp] theorem windowCheck_call_rawovf : (windowCheck s).call.rawovf = s.call.rawovf := by unfold windowCheck; split <;> simp
@[simp] theorem windowCheck_call_msgovf : (windowCheck s).call.msgovf = s.call.msgovf := by unfold windowCheck; split <;> simp
@[simp] theorem windowCheck_call_glitchCnt : (windowCheck s).call.glitchCnt = s.call.glitchCnt := by unfold windowCheck; split <;> simp
@[simp] theorem windowCheck_call_skipCnt : (windowCheck s).call.skipCnt = s.call.skipCnt := by unfold windowCheck; split <;> simp
@[simp] theorem windowCheck_call_dropCnt : (windowCheck s).call.dropCnt = s.call.dropCnt := by unfold windowCheck; split <;> simp
@[simp] theorem windowCheck_call_warmCnt : (windowCheck s).call.warmCnt = s.call.warmCnt := by unfold windowCheck; split <;> simp

@[simp] theorem payloadCheck_call_pos : (payloadCheck s).call.pos = s.call.pos := by unfold payloadCheck; split <;> simp
@[simp] theorem payloadCheck_call_wsum : (payloadCheck s).call.wsum = s.call.wsum := by unfold payloadCheck; split <;> simp
@[simp] theorem payloadCheck_call_wcnt : (payloadCheck s).call.wcnt = s.call.wcnt := by unfold payloadCheck; split <;> simp
@[simp] theorem payloadCheck_call_sr : (payloadCheck s).call.sr = s.call.sr := by unfold payloadCheck; split <;> simp
@[simp] theorem payloadCheck_call_bitcnt : (payloadCheck s).call.bitcnt = s.call.bitcnt := by unfold payloadCheck; split <;> simp
@[simp] theorem payloadCheck_call_acc : (payloadCheck s).call.acc = s.call.acc := by unfold payloadCheck; split <;> simp
@[simp] theorem payloadCheck_call_bitn : (payloadCheck s).call.bitn = s.call.bitn := by unfold payloadCheck; split <;> simp
@[simp] theorem payloadCheck_call_syncPos : (payloadCheck s).call.syncPos = s.call.syncPos := by unfold payloadCheck; split <;> simp
@[simp] theorem payloadCheck_call_syncBit : (payloadCheck s).call.syncBit = s.call.syncBit := by unfold payloadCheck; split <;> simp
@[simp] theorem payloadCheck_call_nopre : (payloadCheck s).call.nopre = s.call.nopre := by unfold payloadCheck; split <;> simp
@[simp] theorem payloadCheck_call_short : (payloadCheck s).call.short = s.call.short := by unfold payloadCheck; split <;> simp
@[simp] theorem payloadCheck_call_rawovf : (payloadCheck s).call.rawovf = s.call.rawovf := by unfold payloadCheck; split <;> simp
@[simp] theorem payloadCheck_call_msgovf : (payloadCheck s).call.msgovf = s.call.msgovf := by unfold payloadCheck; split <;> simp
@[simp] theorem payloadCheck_call_glitchCnt : (payloadCheck s).call.glitchCnt = s.call.glitchCnt := by unfold payloadCheck; split <;> simp
@[simp] theorem payloadCheck_call_skipCnt : (payloadCheck s).call.skipCnt = s.call.skipCnt := by unfold payloadCheck; split <;> simp
@[simp] theorem payloadCheck_call_dropCnt : (payloadCheck s).call.dropCnt = s.call.dropCnt := by unfold payloadCheck; split <;> simp
@[simp] theorem payloadCheck_call_warmCnt : (payloadCheck s).call.warmCnt = s.call.warmCnt := by unfold payloadCheck; split <;> simp

@[simp] theorem posCheck_call_pos : (posCheck s).call.pos = s.call.pos := by unfold posCheck; split <;> simp
@[simp] theorem posCheck_call_wsum : (posCheck s).call.wsum = s.call.wsum := by unfold posCheck; split <;> simp
@[simp] theorem posCheck_call_wcnt : (posCheck s).call.wcnt = s.call.wcnt := by unfold posCheck; split <;> simp
@[simp] theorem posCheck_call_sr : (posCheck s).call.sr = s.call.sr := by unfold posCheck; split <;> simp
@[simp] theorem posCheck_call_bitcnt : (posCheck s).call.bitcnt = s.call.bitcnt := by unfold posCheck; split <;> simp
@[simp] theorem posCheck_call_acc : (posCheck s).call.acc = s.call.acc := by unfold posCheck; split <;> simp
@[simp] theorem posCheck_call_bitn : (posCheck s).call.bitn = s.call.bitn := by unfold posCheck; split <;> simp
@[simp] theorem posCheck_call_nopre : (posCheck s).call.nopre = s.call.nopre := by unfold posCheck; split <;> simp
@[simp] theorem posCheck_call_short : (posCheck s).call.short = s.call.short := by unfold posCheck; split <;> simp
@[simp] theorem posCheck_call_rawovf : (posCheck s).call.rawovf = s.call.rawovf := by unfold posCheck; split <;> simp
@[simp] theorem posCheck_call_msgovf : (posCheck s).call.msgovf = s.call.msgovf := by unfold posCheck; split <;> simp
@[simp] theorem posCheck_call_glitchCnt : (posCheck s).call.glitchCnt = s.call.glitchCnt := by unfold posCheck; split <;> simp
@[simp] theorem posCheck_call_skipCnt : (posCheck s).call.skipCnt = s.call.skipCnt := by unfold posCheck; split <;> simp
@[simp] theorem posCheck_call_dropCnt : (posCheck s).call.dropCnt = s.call.dropCnt := by unfold posCheck; split <;> simp
@[simp] theorem posCheck_call_warmCnt : (posCheck s).call.warmCnt = s.call.warmCnt := by unfold posCheck; split <;> simp

@[simp] theorem decideAtStart_call_pos : (decideAtStart s).call.pos = s.call.pos := by unfold decideAtStart; (repeat' split) <;> simp
@[simp] theorem decideAtStart_call_wsum : (decideAtStart s).call.wsum = s.call.wsum := by unfold decideAtStart; (repeat' split) <;> simp
@[simp] theorem decideAtStart_call_wcnt : (decideAtStart s).call.wcnt = s.call.wcnt := by unfold decideAtStart; (repeat' split) <;> simp
@[simp] theorem decideAtStart_call_sr : (decideAtStart s).call.sr = s.call.sr := by unfold decideAtStart; (repeat' split) <;> simp
@[simp] theorem decideAtStart_call_bitcnt : (decideAtStart s).call.bitcnt = s.call.bitcnt := by unfold decideAtStart; (repeat' split) <;> simp
@[simp] theorem decideAtStart_call_acc : (decideAtStart s).call.acc = s.call.acc := by unfold decideAtStart; (repeat' split) <;> simp
@[simp] theorem decideAtStart_call_bitn : (decideAtStart s).call.bitn = s.call.bitn := by unfold decideAtStart; (repeat' split) <;> simp
@[simp] theorem decideAtStart_call_nopre : (decideAtStart s).call.nopre = s.call.nopre := by unfold decideAtStart; (repeat' split) <;> simp
@[simp] theorem decideAtStart_call_short : (decideAtStart s).call.short = s.call.short := by unfold decideAtStart; (repeat' split) <;> simp
@[simp] theorem decideAtStart_call_rawovf : (decideAtStart s).call.rawovf = s.call.rawovf := by unfold decideAtStart; (repeat' split) <;> simp
@[simp] theorem decideAtStart_call_msgovf : (decideAtStart s).call.msgovf = s.call.msgovf := by unfold decideAtStart; (repeat' split) <;> simp
@[simp] theorem decideAtStart_call_glitchCnt : (decideAtStart s).call.glitchCnt = s.call.glitchCnt := by unfold decideAtStart; (repeat' split) <;> simp
@[simp] theorem decideAtStart_call_skipCnt : (decideAtStart s).call.skipCnt = s.call.skipCnt := by unfold decideAtStart; (repeat' split) <;> simp
@[simp] theorem decideAtStart_call_dropCnt : (decideAtStart s).call.dropCnt = s.call.dropCnt := by unfold decideAtStart; (repeat' split) <;> simp
@[simp] theorem decideAtStart_call_warmCnt : (decideAtStart s).call.warmCnt = s.call.warmCnt := by unfold decideAtStart; (repeat' split) <;> simp

@[simp] theorem classifyUpdate_call_pos (v : Half) : (classifyUpdate v s).call.pos = s.call.pos := by rcases classifyUpdate_call s v with h | h <;> rw [h]
@[simp] theorem classifyUpdate_call_wsum (v : Half) : (classifyUpdate v s).call.wsum = s.call.wsum := by rcases classifyUpdate_call s v with h | h <;> rw [h]
@[simp] theorem classifyUpdate_call_wcnt (v : Half) : (classifyUpdate v s).call.wcnt = s.call.wcnt := by rcases classifyUpdate_call s v with h | h <;> rw [h]
@[simp] theorem classifyUpdate_call_sr (v : Half) : (classifyUpdate v s).call.sr = s.call.sr := by rcases classifyUpdate_call s v with h | h <;> rw [h]
@[simp] theorem classifyUpdate_call_bitcnt (v : Half) : (classifyUpdate v s).call.bitcnt = s.call.bitcnt := by rcases classifyUpdate_call s v with h | h <;> rw [h]
@[simp] theorem classifyUpdate_call_acc (v : Half) : (classifyUpdate v s).call.acc = s.call.acc := by rcases classifyUpdate_call s v with h | h <;> rw [h]
@[simp] theorem classifyUpdate_call_bitn (v : Half) : (classifyUpdate v s).call.bitn = s.call.bitn := by rcases classifyUpdate_call s v with h | h <;> rw [h]
@[simp] theorem classifyUpdate_call_syncPos (v : Half) : (classifyUpdate v s).call.syncPos = s.call.syncPos := by rcases classifyUpdate_call s v with h | h <;> rw [h]
@[simp] theorem classifyUpdate_call_syncBit (v : Half) : (classifyUpdate v s).call.syncBit = s.call.syncBit := by rcases classifyUpdate_call s v with h | h <;> rw [h]
@[simp] theorem classifyUpdate_call_nopre (v : Half) : (classifyUpdate v s).call.nopre = s.call.nopre := by rcases classifyUpdate_call s v with h | h <;> rw [h]
@[simp] theorem classifyUpdate_call_short (v : Half) : (classifyUpdate v s).call.short = s.call.short := by rcases classifyUpdate_call s v with h | h <;> rw [h]
@[simp] theorem classifyUpdate_call_rawovf (v : Half) : (classifyUpdate v s).call.rawovf = s.call.rawovf := by rcases classifyUpdate_call s v with h | h <;> rw [h]
@[simp] theorem classifyUpdate_call_msgovf (v : Half) : (classifyUpdate v s).call.msgovf = s.call.msgovf := by rcases classifyUpdate_call s v with h | h <;> rw [h]
@[simp] theorem classifyUpdate_call_left (v : Half) : (classifyUpdate v s).call.left = s.call.left := by rcases classifyUpdate_call s v with h | h <;> rw [h]
@[simp] theorem classifyUpdate_call_glitchCnt (v : Half) : (classifyUpdate v s).call.glitchCnt = s.call.glitchCnt := by rcases classifyUpdate_call s v with h | h <;> rw [h]
@[simp] theorem classifyUpdate_call_skipCnt (v : Half) : (classifyUpdate v s).call.skipCnt = s.call.skipCnt := by rcases classifyUpdate_call s v with h | h <;> rw [h]
@[simp] theorem classifyUpdate_call_dropCnt (v : Half) : (classifyUpdate v s).call.dropCnt = s.call.dropCnt := by rcases classifyUpdate_call s v with h | h <;> rw [h]

@[simp] theorem windowSample_call_pos (p : Nat) (v : Half) : (windowSample p v s).call.pos = s.call.pos := by unfold windowSample; split <;> simp
@[simp] theorem windowSample_call_sr (p : Nat) (v : Half) : (windowSample p v s).call.sr = s.call.sr := by unfold windowSample; split <;> simp
@[simp] theorem windowSample_call_bitcnt (p : Nat) (v : Half) : (windowSample p v s).call.bitcnt = s.call.bitcnt := by unfold windowSample; split <;> simp
@[simp] theorem windowSample_call_acc (p : Nat) (v : Half) : (windowSample p v s).call.acc = s.call.acc := by unfold windowSample; split <;> simp
@[simp] theorem windowSample_call_bitn (p : Nat) (v : Half) : (windowSample p v s).call.bitn = s.call.bitn := by unfold windowSample; split <;> simp
@[simp] theorem windowSample_call_syncPos (p : Nat) (v : Half) : (windowSample p v s).call.syncPos = s.call.syncPos := by unfold windowSample; split <;> simp
@[simp] theorem windowSample_call_syncBit (p : Nat) (v : Half) : (windowSample p v s).call.syncBit = s.call.syncBit := by unfold windowSample; split <;> simp
@[simp] theorem windowSample_call_nopre (p : Nat) (v : Half) : (windowSample p v s).call.nopre = s.call.nopre := by unfold windowSample; split <;> simp
@[simp] theorem windowSample_call_short (p : Nat) (v : Half) : (windowSample p v s).call.short = s.call.short := by unfold windowSample; split <;> simp
@[simp] theorem windowSample_call_rawovf (p : Nat) (v : Half) : (windowSample p v s).call.rawovf = s.call.rawovf := by unfold windowSample; split <;> simp
@[simp] theorem windowSample_call_msgovf (p : Nat) (v : Half) : (windowSample p v s).call.msgovf = s.call.msgovf := by unfold windowSample; split <;> simp
@[simp] theorem windowSample_call_left (p : Nat) (v : Half) : (windowSample p v s).call.left = s.call.left := by unfold windowSample; split <;> simp
@[simp] theorem windowSample_call_glitchCnt (p : Nat) (v : Half) : (windowSample p v s).call.glitchCnt = s.call.glitchCnt := by unfold windowSample; split <;> simp
@[simp] theorem windowSample_call_skipCnt (p : Nat) (v : Half) : (windowSample p v s).call.skipCnt = s.call.skipCnt := by unfold windowSample; split <;> simp
@[simp] theorem windowSample_call_dropCnt (p : Nat) (v : Half) : (windowSample p v s).call.dropCnt = s.call.dropCnt := by unfold windowSample; split <;> simp
@[simp] theorem windowSample_call_warmCnt (p : Nat) (v : Half) : (windowSample p v s).call.warmCnt = s.call.warmCnt := by unfold windowSample; split <;> simp

end Sys2Proof.Machine
end

