-- ==== Sys2Proof/Laws/Memory.lean ====
section
/-! SUPPORT. Every operation on the buffers keeps them within their capacities (spec 20_memory.md R60, R61), and a read
after a store gives what was stored. -/

namespace Sys2Proof.Machine

/-- The reset buffers are empty (10_state.md R48). -/
theorem memory_reset_wf (p : Params) : Memory.wf p Memory.reset := by
  simp [Memory.wf, Memory.reset]

theorem state_reset_wf : Memory.wf State.reset.params State.reset.mem := memory_reset_wf _

/-- A byte stored is the byte read at `MSG_LEN`, and every other index reads as before (42_reassembler.md R183). -/
theorem storeByte_read (s : State) (x : Byte) (h : s.mem.msg.length < s.params.msgCap) (i : Nat) :
    (storeByte x s).mem.readMsg i = if i = s.mem.msg.length then some x else s.mem.readMsg i := by
  simp only [storeByte_mem, h, if_true, Memory.readMsg, List.getElem?_append]
  split
  · simp_all
    intro hi
    omega
  · split
    · simp_all
    · rename_i h1 h2
      rw [List.getElem?_eq_none (by simp; omega), List.getElem?_eq_none (by omega)]

/-- A bit stored is the bit read at `RAW_LEN`, and every other index reads as before (42_reassembler.md R181). -/
theorem storeRawBit_read (s : State) (b : Bool) (h : s.mem.raw.length < s.params.rawCap) (j : Nat) :
    (storeRawBit b s).mem.readRaw j = if j = s.mem.raw.length then some b else s.mem.readRaw j := by
  simp only [storeRawBit_mem, h, if_true, Memory.readRaw, List.getElem?_append]
  split
  · simp_all
    intro hi
    omega
  · split
    · simp_all
    · rename_i h1 h2
      rw [List.getElem?_eq_none (by simp; omega), List.getElem?_eq_none (by omega)]

theorem storeByte_wf {s : State} (x : Byte) (h : Memory.wf s.params s.mem) :
    Memory.wf (storeByte x s).params (storeByte x s).mem := by
  obtain ⟨h1, h2⟩ := h
  simp only [Memory.wf, storeByte_params, storeByte_mem]
  split <;> simp_all

theorem storeRawBit_wf {s : State} (b : Bool) (h : Memory.wf s.params s.mem) :
    Memory.wf (storeRawBit b s).params (storeRawBit b s).mem := by
  obtain ⟨h1, h2⟩ := h
  simp only [Memory.wf, storeRawBit_params, storeRawBit_mem]
  split <;> simp_all

theorem assembleBit_wf {s : State} (b : Bool) (h : Memory.wf s.params s.mem) :
    Memory.wf (assembleBit b s).params (assembleBit b s).mem := by
  unfold assembleBit
  dsimp only
  split
  · simpa using storeByte_wf (s := s) _ h
  · simpa using h

/-- `EmitBit` keeps the buffers within their capacities (42_reassembler.md R181, R183). -/
theorem emitBit_wf {s : State} (b : Bool) (h : Memory.wf s.params s.mem) :
    Memory.wf (emitBit b s).params (emitBit b s).mem := by
  have hr := storeRawBit_wf b h
  unfold emitBit
  split
  · simpa using assembleBit_wf b hr
  · simpa using hr
  · exact hr

theorem enterPayload_wf {s : State} (h : Memory.wf s.params s.mem) :
    Memory.wf (enterPayload s).params (enterPayload s).mem := by simpa using h

theorem finalize_wf {s : State} (st : Fsm) (h : Memory.wf s.params s.mem) :
    Memory.wf (finalize st s).params (finalize st s).mem := h

theorem openCall_wf (s : State) : Memory.wf (openCall s).params (openCall s).mem := memory_reset_wf _

theorem resetState_wf (s : State) : Memory.wf (resetState s).params (resetState s).mem := memory_reset_wf _

end Sys2Proof.Machine
end

