-- ==== Sys2Proof/Laws/PerInstr.lean ====
section
/-! SUPPORT. One statement about every command as syntax: its word carries the opcode of spec 30_encoding.md R83 and
writes the reserved bits 27:24 as 0 (R80). -/

namespace Sys2Proof.Laws.OpcodeField

/-- The opcode map of R83. -/
def opcode : Instr → BitVec 4
  | .nop => 0x0
  | .srst => 0x1
  | .wrreg _ _ => 0x2
  | .rdreg _ => 0x3
  | .start => 0x4
  | .sample _ => 0x5
  | .skip => 0x6
  | .endCall => 0x7
  | .cals _ => 0x8
  | .clrh => 0x9
  | .rdmsg _ => 0xA
  | .rdraw _ => 0xB

/-- The command's word carries its opcode, and its reserved bits are 0. -/
def Statement (i : Instr) : Prop :=
  opField (encode i) = opcode i ∧ (encode i).extractLsb' 24 4 = 0

theorem nop : Statement .nop :=
  ⟨opField_fieldsWord _ _ _, reservedField_fieldsWord _ _ _⟩
theorem srst : Statement .srst :=
  ⟨opField_fieldsWord _ _ _, reservedField_fieldsWord _ _ _⟩
theorem wrreg (reg : Reg) (data : Half) : Statement (.wrreg reg data) :=
  ⟨opField_fieldsWord _ _ _, reservedField_fieldsWord _ _ _⟩
theorem rdreg (reg : Reg) : Statement (.rdreg reg) :=
  ⟨opField_fieldsWord _ _ _, reservedField_fieldsWord _ _ _⟩
theorem start : Statement .start :=
  ⟨opField_fieldsWord _ _ _, reservedField_fieldsWord _ _ _⟩
theorem sample (data : Half) : Statement (.sample data) :=
  ⟨opField_fieldsWord _ _ _, reservedField_fieldsWord _ _ _⟩
theorem skip : Statement .skip :=
  ⟨opField_fieldsWord _ _ _, reservedField_fieldsWord _ _ _⟩
theorem endCall : Statement .endCall :=
  ⟨opField_fieldsWord _ _ _, reservedField_fieldsWord _ _ _⟩
theorem cals (data : Half) : Statement (.cals data) :=
  ⟨opField_fieldsWord _ _ _, reservedField_fieldsWord _ _ _⟩
theorem clrh : Statement .clrh :=
  ⟨opField_fieldsWord _ _ _, reservedField_fieldsWord _ _ _⟩
theorem rdmsg (index : Half) : Statement (.rdmsg index) :=
  ⟨opField_fieldsWord _ _ _, reservedField_fieldsWord _ _ _⟩
theorem rdraw (index : Half) : Statement (.rdraw index) :=
  ⟨opField_fieldsWord _ _ _, reservedField_fieldsWord _ _ _⟩

end Sys2Proof.Laws.OpcodeField
end

