-- ==== Sys2Proof/Laws/Step.lean ====
section
/-! SUPPORT. What a command and a step can do, said once: one inversion lemma per meaning that branches, one for
`step`, and the scheme that an invariant's proof follows. -/

namespace Sys2Proof.Machine

variable {s t : State}

/-- Every case of a `SAMPLE` (41_synchronizer.md R140, R141). -/
theorem execSample_cases {d : Half} (h : execSample d s = .next t) :
    (s.call.fsm = .idle ∧ t = raise .seq s) ∨ (s.call.fsm.terminal = true ∧ t = s) ∨
      (s.call.fsm.running = true ∧ t = sampleRunning d s) := by
  unfold execSample at h
  cases hf : s.call.fsm <;> simp [hf, Fsm.terminal, Fsm.running] at h ⊢ <;> exact h.symm

/-- Every case of a `SKIP` (41_synchronizer.md R170, R141). -/
theorem execSkip_cases (h : execSkip s = .next t) :
    (s.call.fsm = .idle ∧ t = raise .seq s) ∨ (s.call.fsm.terminal = true ∧ t = s) ∨
      (s.call.fsm.running = true ∧ t = posCheck (countSkip (advancePos s))) := by
  unfold execSkip at h
  cases hf : s.call.fsm <;> simp [hf, Fsm.terminal, Fsm.running] at h ⊢ <;> exact h.symm

/-- Every case of an `END` (43_orchestrator.md R208). -/
theorem execEnd_cases (h : execEnd s = .next t) :
    (s.call.fsm = .idle ∧ t = raise .seq s) ∨ (s.call.fsm.terminal = true ∧ t = s) ∨
      (s.call.fsm = .search ∧ t = endSearch s) ∨ (s.call.fsm = .payload ∧ t = endPayload s) := by
  unfold execEnd at h
  cases hf : s.call.fsm <;> simp [hf, Fsm.terminal] at h ⊢ <;> exact h.symm

/-- Every case of a `START` (43_orchestrator.md R205, R206). -/
theorem execStart_cases (h : execStart s = .next t) :
    (s.call.fsm.running = true ∧ t = raise .seq s) ∨
      (s.call.fsm.running = false ∧ t = decideAtStart (openCall s)) := by
  unfold execStart at h
  cases hf : s.call.fsm.running <;> simp [hf] at h ⊢ <;> exact h.symm

/-- Every case of a `CLRH` (43_orchestrator.md R210). -/
theorem execClrh_cases (h : execClrh s = .next t) :
    (s.call.fsm.running = true ∧ t = raise .seq s) ∨
      (s.call.fsm.running = false ∧ t = clearHistory s) := by
  unfold execClrh at h
  cases hf : s.call.fsm.running <;> simp [hf] at h ⊢ <;> exact h.symm

/-- Every case of a `CALS` (40_classifier.md R118). -/
theorem execCals_cases {d : Half} (h : execCals d s = .next t) :
    ((s.call.fsm.running = true ∨ s.cfg.policy ≠ .cal) ∧ t = raise .seq s) ∨
      (s.call.fsm.running = false ∧ s.cfg.policy = .cal ∧
        ((glitch s.cfg d = true ∧ t = countGlitch s) ∨
          (glitch s.cfg d = false ∧ s.cls.calValid = true ∧ t = s) ∨
          (glitch s.cfg d = false ∧ s.cls.calValid = false ∧ t = calibrate d s))) := by
  unfold execCals at h
  cases hf : s.call.fsm.running <;> simp [hf] at h ⊢
  · by_cases hp : s.cfg.policy = .cal
    · refine .inr ⟨hp, ?_⟩
      cases hg : glitch s.cfg d <;> simp [hg, hp] at h ⊢
      · cases hv : s.cls.calValid <;> simp [hv] at h ⊢ <;> exact h.symm
      · exact h.symm
    · exact .inl ⟨hp, by simpa [hp] using h.symm⟩
  · exact h.symm

/-- Every case of a `WRREG` (44_register_access.md R231, R232). -/
theorem execWrreg_cases {reg : Reg} {d : Half} (h : execWrreg reg d s = .next t) :
    (s.call.fsm.running = true ∧ t = raise .cfgBusy s) ∨
      (s.call.fsm.running = false ∧
        (((∀ r, reg ≠ .cfg r) ∧ t = raise .addr s) ∨
          (∃ r, reg = .cfg r ∧ legalValue s.params r d = false ∧ t = raise .cfgVal s) ∨
          (∃ r, reg = .cfg r ∧ legalValue s.params r d = true ∧ t = writeCfg r d s))) := by
  unfold execWrreg at h
  cases hf : s.call.fsm.running <;> simp [hf] at h ⊢
  · cases reg with
    | cfg r =>
      cases hl : legalValue s.params r d <;> simp [hl] at h ⊢ <;> exact h.symm
    | stat r => simpa using h.symm
    | unimplemented n => simpa using h.symm
  · exact h.symm

/-- A read changes `ERR` and the responses at most (20_memory.md R66, 44_register_access.md R244). -/
theorem execRdreg_cases {reg : Reg} (h : execRdreg reg s = .next t) :
    ∃ v e, t = (s.withErr e).withResponses (s.responses ++ [v]) := by
  cases reg <;> simp only [execRdreg, Host.Outcome.next.injEq] at h <;> exact ⟨_, _, h.symm⟩

theorem execRdmsg_cases {i : Half} (h : execRdmsg i s = .next t) :
    ∃ v e, t = (s.withErr e).withResponses (s.responses ++ [v]) := by
  unfold execRdmsg at h
  split at h <;> simp only [Host.Outcome.next.injEq] at h <;> exact ⟨_, _, h.symm⟩

theorem execRdraw_cases {i : Half} (h : execRdraw i s = .next t) :
    ∃ v e, t = (s.withErr e).withResponses (s.responses ++ [v]) := by
  unfold execRdraw at h
  split at h <;> simp only [Host.Outcome.next.injEq] at h <;> exact ⟨_, _, h.symm⟩

/-- Every case of a step (43_orchestrator.md R200): nothing waiting, a hardware reset, a word that is no command, or a
command. -/
theorem step_cases (h : step s = .next t) :
    (s.port = [] ∧ t = s) ∨
      (∃ rest, s.port = .hardwareReset :: rest ∧ t = resetState (s.withPort rest)) ∨
      (∃ w rest e, s.port = .command w :: rest ∧ decode w = .error e ∧ t = raise .ill (s.withPort rest)) ∨
      (∃ w rest i, s.port = .command w :: rest ∧ decode w = .ok i ∧ exec i (s.withPort rest) = .next t) := by
  unfold step at h
  split at h
  · rename_i hp
    exact .inl ⟨hp, by simpa using h.symm⟩
  · rename_i rest hp
    exact .inr (.inl ⟨rest, hp, by simpa [hardwareReset] using h.symm⟩)
  · rename_i w rest hp
    split at h
    · rename_i i hi
      exact .inr (.inr (.inr ⟨w, rest, i, hp, hi, h⟩))
    · rename_i e he
      exact .inr (.inr (.inl ⟨w, rest, e, hp, he, by simpa [illegalCommand] using h.symm⟩))

/-- Two states agree on everything but errors, port and responses. -/
abbrev SameCore (t s : State) : Prop :=
  t.params = s.params ∧ t.cfg = s.cfg ∧ t.call = s.call ∧ t.cls = s.cls ∧ t.mem = s.mem

/-- What a step can do to the configuration, the call, the classifier's state and the buffers: nothing, or one of
these operations under the condition in which a command runs it. -/
inductive Change (s : State) : State → Prop
  | same : Change s s
  | reset : Change s (resetState s)
  | write (r : CfgReg) (d : Half) : s.call.fsm.running = false → legalValue s.params r d = true →
      Change s (writeCfg r d s)
  | start : s.call.fsm.running = false → Change s (decideAtStart (openCall s))
  | sample (d : Half) : s.call.fsm.running = true → Change s (sampleRunning d s)
  | skip : s.call.fsm.running = true → Change s (posCheck (countSkip (advancePos s)))
  | endSearch : s.call.fsm = .search → Change s (endSearch s)
  | endPayload : s.call.fsm = .payload → Change s (endPayload s)
  | calibrate (d : Half) : s.call.fsm.running = false → s.cfg.policy = .cal → s.cls.calValid = false →
      Change s (calibrate d s)
  | calsGlitch : s.call.fsm.running = false → Change s (countGlitch s)
  | clear : s.call.fsm.running = false → Change s (clearHistory s)

/-- What a command can do. -/
theorem exec_change {i : Instr} (h : exec i s = .next t) : ∃ x, Change s x ∧ SameCore t x := by
  have raised : ∀ e, ∃ x, Change s x ∧ SameCore (raise e s) x := fun e => ⟨s, .same, by simp [SameCore]⟩
  have answered : (∃ v e, t = (s.withErr e).withResponses (s.responses ++ [v])) →
      ∃ x, Change s x ∧ SameCore t x := by
    rintro ⟨v, e, rfl⟩
    exact ⟨s, .same, by simp [SameCore]⟩
  have agree : ∀ x : State, SameCore x x := fun x => ⟨rfl, rfl, rfl, rfl, rfl⟩
  cases i with
  | nop => simp only [exec, execNop, Host.Outcome.next.injEq] at h; exact h ▸ ⟨s, .same, agree s⟩
  | srst => simp only [exec, execSrst, Host.Outcome.next.injEq] at h; exact h ▸ ⟨_, .reset, agree _⟩
  | wrreg reg d =>
    rcases execWrreg_cases h with ⟨_, rfl⟩ | ⟨hn, ⟨_, rfl⟩ | ⟨_, _, _, rfl⟩ | ⟨r, _, hl, rfl⟩⟩
    · exact raised _
    · exact raised _
    · exact raised _
    · exact ⟨_, .write r d hn hl, agree _⟩
  | rdreg reg => exact answered (execRdreg_cases h)
  | start =>
    rcases execStart_cases h with ⟨_, rfl⟩ | ⟨hn, rfl⟩
    · exact raised _
    · exact ⟨_, .start hn, agree _⟩
  | sample d =>
    rcases execSample_cases h with ⟨_, rfl⟩ | ⟨_, rfl⟩ | ⟨hn, rfl⟩
    · exact raised _
    · exact ⟨_, .same, agree _⟩
    · exact ⟨_, .sample d hn, agree _⟩
  | skip =>
    rcases execSkip_cases h with ⟨_, rfl⟩ | ⟨_, rfl⟩ | ⟨hn, rfl⟩
    · exact raised _
    · exact ⟨_, .same, agree _⟩
    · exact ⟨_, .skip hn, agree _⟩
  | endCall =>
    rcases execEnd_cases h with ⟨_, rfl⟩ | ⟨_, rfl⟩ | ⟨hn, rfl⟩ | ⟨hn, rfl⟩
    · exact raised _
    · exact ⟨_, .same, agree _⟩
    · exact ⟨_, .endSearch hn, agree _⟩
    · exact ⟨_, .endPayload hn, agree _⟩
  | cals d =>
    rcases execCals_cases h with ⟨_, rfl⟩ | ⟨hn, hp, ⟨_, rfl⟩ | ⟨_, _, rfl⟩ | ⟨_, hv, rfl⟩⟩
    · exact raised _
    · exact ⟨_, .calsGlitch hn, agree _⟩
    · exact ⟨_, .same, agree _⟩
    · exact ⟨_, .calibrate d hn hp hv, agree _⟩
  | clrh =>
    rcases execClrh_cases h with ⟨_, rfl⟩ | ⟨hn, rfl⟩
    · exact raised _
    · exact ⟨_, .clear hn, agree _⟩
  | rdmsg i => exact answered (execRdmsg_cases h)
  | rdraw i => exact answered (execRdraw_cases h)

/-- What a step can do: one change of a state that differs from the given one in the port at most. -/
theorem step_change (h : step s = .next t) : ∃ u x, SameCore u s ∧ Change u x ∧ SameCore t x := by
  have agree : ∀ x : State, SameCore x x := fun x => ⟨rfl, rfl, rfl, rfl, rfl⟩
  rcases step_cases h with ⟨_, rfl⟩ | ⟨rest, _, rfl⟩ | ⟨w, rest, e, _, _, rfl⟩ | ⟨w, rest, i, _, _, hx⟩
  · exact ⟨t, t, agree t, .same, agree t⟩
  · exact ⟨s.withPort rest, _, agree _, .reset, agree _⟩
  · exact ⟨s.withPort rest, s.withPort rest, agree _, .same, by simp [SameCore]⟩
  · obtain ⟨x, hc, ht⟩ := exec_change hx
    exact ⟨s.withPort rest, x, agree _, hc, ht⟩

/-- The scheme of an invariant's proof: it looks at no error, port or response, and each change that a step can make
keeps it. `Q` is what is already known of the state before. -/
theorem step_preserves {Q P : State → Prop}
    (lookQ : ∀ s t : State, SameCore t s → Q s → Q t)
    (look : ∀ s t : State, SameCore t s → P s → P t)
    (change : ∀ s x : State, Change s x → Q s → P s → P x)
    (hq : Q s) (hs : P s) (h : step s = .next t) : P t := by
  obtain ⟨u, x, hu, hc, ht⟩ := step_change h
  exact look _ _ ht (change _ _ hc (lookQ _ _ hu hq) (look _ _ hu hs))

end Sys2Proof.Machine
end

