-- ==== Sys2Proof/Machine/Assembler.lean ====
section
/-! DEFINITION. The values and the pseudo-instructions of the spec's assembler notation (spec 30_encoding.md R88
to R90), from its parsed form to command words. -/

namespace Sys2Proof.Machine

/-- A numeric literal (R89). -/
inductive Literal
  /-- A decimal or hexadecimal integer. -/
  | plain (n : Int)
  /-- A decimal integer with the suffix `dB`. -/
  | dB (n : Int)
  /-- A decimal integer with the suffix `Hz`. -/
  | hz (n : Int)
  deriving DecidableEq, Repr

/-- The integer a literal stands for: `dB` multiplies by 16, `Hz` does nothing (R89). -/
def Literal.value : Literal → Int
  | .plain n => n
  | .dB n => 16 * n
  | .hz n => n

/-- The `data` field of a literal: a negative value n is n + 65536; outside −32768 to 65535 is an assembly error
(R89). -/
def Literal.data (l : Literal) : Option Half :=
  if -32768 ≤ l.value ∧ l.value ≤ 65535 then some (BitVec.ofInt 16 l.value) else none

/-- One line of assembler text, parsed (R88, R90). -/
inductive AsmLine
  /-- A command with its operands in place. -/
  | command (i : Instr)
  /-- `WRREG reg, value`. -/
  | wrreg (reg : Reg) (value : Literal)
  /-- `SAMPLE value`. -/
  | sample (value : Literal)
  /-- `CALS value`. -/
  | cals (value : Literal)
  /-- `RDMSG index`. -/
  | rdmsg (index : Literal)
  /-- `RDRAW index`. -/
  | rdraw (index : Literal)
  /-- `CFG reg, value`, a synonym of `WRREG`. -/
  | cfg (reg : Reg) (value : Literal)
  /-- `BITS high, low, bitstring`. -/
  | bits (high low : Literal) (string : List Bool)
  /-- `REP n, command`; the command may itself be a pseudo-instruction (DESIGN CHOICE, log 15). -/
  | rep (n : Nat) (line : AsmLine)
  deriving Repr

/-- The commands a line stands for, or nothing on an assembly error (R89, R90). -/
def AsmLine.expand : AsmLine → Option (List Instr)
  | .command i => some [i]
  | .wrreg reg v => v.data.map fun d => [.wrreg reg d]
  | .sample v => v.data.map fun d => [.sample d]
  | .cals v => v.data.map fun d => [.cals d]
  | .rdmsg v => v.data.map fun d => [.rdmsg d]
  | .rdraw v => v.data.map fun d => [.rdraw d]
  | .cfg reg v => v.data.map fun d => [.wrreg reg d]
  | .bits high low string =>
    high.data.bind fun h => low.data.map fun l => string.map fun b => .sample (if b then h else l)
  | .rep n line => line.expand.map fun is => (List.replicate n is).flatten

/-- The command words of a line. -/
def AsmLine.assemble (line : AsmLine) : Option (List Word) := line.expand.map fun is => is.map encode

end Sys2Proof.Machine
end

