-- ==== Sys2Proof/Machine/AsmText.lean ====
section
/-! DEFINITION. The textual form of the spec's examples (spec 30_encoding.md R88 to R90), from characters to
command words. What R88 leaves open of it (spaces, letter case, blank lines) is the model's choice (log 15). -/

namespace Sys2Proof.Machine

/-- The name of a configuration register (10_state.md R25). -/
def cfgRegName : CfgReg → String
  | .mode => "MODE"
  | .preStart => "PRE_START"
  | .preLen => "PRE_LEN"
  | .capBits => "CAP_BITS"
  | .payLen => "PAY_LEN"
  | .clsThr => "CLS_THR"
  | .markThr => "MARK_THR"
  | .glitch => "GLITCH"
  | .win => "WIN"
  | .calLen => "CAL_LEN"
  | .deltaThr => "DELTA_THR"
  | .pat => "PAT"
  | .patLen => "PAT_LEN"
  | .toneHs => "TONE_HS"
  | .toneF0 => "TONE_F0"
  | .toneF1 => "TONE_F1"
  | .toneF2 => "TONE_F2"
  | .toneF3 => "TONE_F3"
  | .toneTol => "TONE_TOL"

/-- The name of a status register (10_state.md R34). -/
def statRegName : StatReg → String
  | .status => "STATUS"
  | .err => "ERR"
  | .pos => "POS"
  | .msgLen => "MSG_LEN"
  | .rawLen => "RAW_LEN"
  | .syncPos => "SYNC_POS"
  | .syncBit => "SYNC_BIT"
  | .bitcnt => "BITCNT"
  | .glitchCnt => "GLITCH_CNT"
  | .skipCnt => "SKIP_CNT"
  | .dropCnt => "DROP_CNT"
  | .warmCnt => "WARM_CNT"
  | .histLen => "HIST_LEN"
  | .calBase2 => "CAL_BASE2"
  | .wsum => "WSUM"
  | .wcnt => "WCNT"
  | .pNmax => "P_NMAX"
  | .pRawCap => "P_RAW_CAP"
  | .pMsgCap => "P_MSG_CAP"

/-- A character between tokens. -/
def isBlank (c : Char) : Bool := c == ' ' || c == '\t' || c == '\r'

/-- The text without the blanks at its two ends. -/
def trimBlanks (t : List Char) : List Char :=
  ((t.dropWhile isBlank).reverse.dropWhile isBlank).reverse

/-- The pieces of a text between the occurrences of a separator. -/
def splitAtChar (sep : Char) : List Char → List (List Char)
  | [] => [[]]
  | c :: rest =>
    match splitAtChar sep rest with
    | [] => [[c]]
    | p :: ps => if c = sep then [] :: p :: ps else (c :: p) :: ps

/-- A digit in a base of at most 16. -/
def digitValue (base : Nat) (c : Char) : Option Nat :=
  let n := c.toNat
  let v := if 48 ≤ n ∧ n ≤ 57 then n - 48
    else if 65 ≤ n ∧ n ≤ 70 then n - 55
    else if 97 ≤ n ∧ n ≤ 102 then n - 87
    else base
  if v < base then some v else none

/-- The digits of a number, most significant first, after `acc`; an underscore separates digits (00_scope.md R15). The
spec does not say whether one may end a number or stand beside another: here any underscore after the first digit is
skipped (DESIGN CHOICE, log 15). -/
def digitsValue (base : Nat) (acc : Nat) : List Char → Option Nat
  | [] => some acc
  | c :: rest =>
    if c = '_' then digitsValue base acc rest
    else (digitValue base c).bind fun v => digitsValue base (base * acc + v) rest

/-- A number begins with a digit. -/
def numberIn (base : Nat) : List Char → Option Nat
  | [] => none
  | c :: rest => (digitValue base c).bind fun v => digitsValue base v rest

/-- A decimal or `0x` hexadecimal number without a sign (R89). -/
def unsignedNumber (t : List Char) : Option Nat :=
  match t with
  | '0' :: 'x' :: h => numberIn 16 h
  | _ => numberIn 10 t

/-- A minus sign: the spec's examples write both the hyphen (30_encoding.md R89) and U+2212 (44_register_access.md
R231), and no rule says which it is; here both are (DESIGN CHOICE, log 15). -/
def isMinus (c : Char) : Bool := c == '-' || c == '−'

/-- A decimal integer, optionally negative (R89). -/
def decimalInteger (t : List Char) : Option Int :=
  match t with
  | [] => none
  | c :: d =>
    if isMinus c then (numberIn 10 d).map fun n => -(n : Int)
    else (numberIn 10 t).map fun n => (n : Int)

/-- A numeric literal (R89). -/
def parseLiteral (t : List Char) : Option Literal :=
  match t with
  | '0' :: 'x' :: h => (numberIn 16 h).map fun n => .plain n
  | _ =>
    match t.reverse with
    | 'B' :: 'd' :: r => (decimalInteger r.reverse).map .dB
    | 'z' :: 'H' :: r => (decimalInteger r.reverse).map .hz
    | _ => (decimalInteger t).map .plain

/-- A register operand: its name or its number, which has 8 bits (R88). -/
def parseReg (t : List Char) : Option Reg :=
  match CfgReg.all.find? (fun r => (cfgRegName r).toList == t) with
  | some r => some (.cfg r)
  | none =>
    match StatReg.all.find? (fun r => (statRegName r).toList == t) with
    | some r => some (.stat r)
    | none =>
      (unsignedNumber t).bind fun n => if n < 256 then some (Reg.ofNumber (BitVec.ofNat 8 n)) else none

/-- A bit string (R90). -/
def parseBits : List Char → Option (List Bool)
  | [] => some []
  | c :: rest =>
    if c = '1' then (parseBits rest).map (true :: ·)
    else if c = '0' then (parseBits rest).map (false :: ·)
    else none

/-- A register and a value, the operands of `WRREG` and of `CFG` (R88, R90). -/
def parseRegValue (f : Reg → Literal → AsmLine) (ops : List (List Char)) : Option AsmLine :=
  match ops with
  | [r, v] => (parseReg r).bind fun reg => (parseLiteral v).map (f reg)
  | _ => none

/-- One value or index, the operand of formats D and I (R88). -/
def parseOne (f : Literal → AsmLine) (ops : List (List Char)) : Option AsmLine :=
  match ops with
  | [v] => (parseLiteral v).map f
  | _ => none

/-- No operand: format N (R88). -/
def parseNone (i : Instr) (ops : List (List Char)) : Option AsmLine :=
  if ops = [] then some (.command i) else none

/-- A mnemonic with its operands (R88), or a pseudo-instruction other than `REP` (R90). -/
def parseCommand (m : List Char) (ops : List (List Char)) : Option AsmLine :=
  if m = "NOP".toList then parseNone .nop ops
  else if m = "SRST".toList then parseNone .srst ops
  else if m = "WRREG".toList then parseRegValue .wrreg ops
  else if m = "RDREG".toList then
    match ops with
    | [r] => (parseReg r).map fun reg => .command (.rdreg reg)
    | _ => none
  else if m = "START".toList then parseNone .start ops
  else if m = "SAMPLE".toList then parseOne .sample ops
  else if m = "SKIP".toList then parseNone .skip ops
  else if m = "END".toList then parseNone .endCall ops
  else if m = "CALS".toList then parseOne .cals ops
  else if m = "CLRH".toList then parseNone .clrh ops
  else if m = "RDMSG".toList then parseOne .rdmsg ops
  else if m = "RDRAW".toList then parseOne .rdraw ops
  else if m = "CFG".toList then parseRegValue .cfg ops
  else if m = "BITS".toList then
    match ops with
    | [h, l, b] =>
      (parseLiteral h).bind fun high => (parseLiteral l).bind fun low =>
        (parseBits b).map fun string => .bits high low string
    | _ => none
  else none

/-- The pieces of a line between its commas: the first holds the mnemonic and the first operand. `REP n` is
followed by a whole command (R90). The spec does not say what `n` and the command may be: here `n` is any unsigned
number, decimal or hexadecimal, and the command may be a pseudo-instruction, another `REP` too (DESIGN CHOICE,
log 15). -/
def parsePieces : List (List Char) → Option AsmLine
  | [] => none
  | p :: ps =>
    let m := (trimBlanks p).takeWhile fun c => !isBlank c
    let first := trimBlanks ((trimBlanks p).dropWhile fun c => !isBlank c)
    if m = "REP".toList then
      (unsignedNumber first).bind fun n => (parsePieces ps).map fun line => .rep n line
    else parseCommand m (if first = [] ∧ ps = [] then [] else first :: ps.map trimBlanks)

/-- One line of text: a `;` starts a comment (R88). -/
def parseLine (t : List Char) : Option AsmLine := parsePieces (splitAtChar ',' (t.takeWhile (· ≠ ';')))

/-- The command words of lines of text, one command a line (R88); a line with nothing but blanks and a comment has
none. Nothing on an assembly error. -/
def assembleLines : List (List Char) → Option (List Word)
  | [] => some []
  | l :: ls =>
    if (l.takeWhile (· ≠ ';')).all isBlank then assembleLines ls
    else (parseLine l).bind fun line => line.assemble.bind fun ws => (assembleLines ls).map fun rest => ws ++ rest

/-- The command words of a text (R88 to R90). -/
def assembleText (t : String) : Option (List Word) := assembleLines (splitAtChar '\n' t.toList)

end Sys2Proof.Machine
end

