-- ==== Sys2Proof/Tests/Slice0.lean ====
section
/-! SUPPORT. Tests on small states, with expected values from spec/95_test_vectors.md and the worked examples of the rules,
and for every statement with hypotheses a concrete instance that meets them. -/

namespace Sys2Proof.Tests

open Sys2Proof.Machine

/-! The states that the tests use. -/

/-- The configuration of 95_test_vectors.md A2. -/
def a2 : Cfg :=
  { Cfg.reset with preStart := 10, preLen := 30, capBits := 740, payLen := 16, clsThr := 0xFC40, markThr := 0xFD30 }

/-- The tone table of 95_test_vectors.md A8. -/
def tones : Cfg :=
  { Cfg.reset with mode := 2, toneHs := 750, toneF0 := 1000, toneF1 := 1250, toneF2 := 1500, toneF3 := 1750, toneTol := 50 }

/-- The configuration of 95_test_vectors.md B9, first row: the pattern 0011. -/
def pat4 : Cfg := { Cfg.reset with mode := 1, capBits := 64, payLen := 4, pat := 3, patLen := 4 }

/-- The configuration of 95_test_vectors.md B5. -/
def adapt4 : Cfg :=
  { Cfg.reset with
    mode := 0x0011, win := 4, deltaThr := 160, glitch := 0xF9C0, pat := 5, patLen := 3, capBits := 8, payLen := 8 }

/-- The configuration of 95_test_vectors.md B6. -/
def cal4 : Cfg :=
  { Cfg.reset with
    mode := 0x0021, calLen := 4, deltaThr := 160, glitch := 0xF9C0, pat := 5, patLen := 3, capBits := 8, payLen := 8 }

/-- A call in `SEARCH` with so many records consumed. -/
def searching (c : Cfg) (pos : BitVec 32) : State :=
  { State.reset with cfg := c, call := { Call.reset with fsm := .search, pos := pos } }

/-- A call in `PAYLOAD` with so many records consumed. -/
def reading (c : Cfg) (pos : BitVec 32) : State :=
  { State.reset with cfg := c, call := { Call.reset with fsm := .payload, pos := pos } }

/-- The A2 call after 51 records: eleven payload bits, one byte and three bits. -/
def midway : State :=
  { State.reset with
    cfg := a2
    call := { Call.reset with
      fsm := .payload, pos := 51, wsum := 0xFFFFB500, wcnt := 30, bitcnt := 11, acc := 3, bitn := 3, syncPos := 40 }
    mem :=
      { msg := [0x48]
        raw := [false, true, false, false, true, false, false, false, false, true, true] }
    port := [.command 0x5000FCE0] }

/-- The B9 call after the bits 0 0 1. -/
def hunting : State :=
  { State.reset with
    cfg := pat4
    call := { Call.reset with fsm := .search, pos := 3, bitcnt := 3, sr := 1 }
    mem := { msg := [], raw := [false, false, true] }
    port := [.command 0x50000001] }

/-- The B5 call before its record 4. -/
def warm : State :=
  { State.reset with
    cfg := adapt4
    call := { Call.reset with fsm := .search, pos := 4, bitcnt := 3, warmCnt := 1 }
    cls := { Classifier.reset with hist := [0xFA60, 0xFA60, 0xFA60, 0xFA60] }
    mem := { msg := [], raw := [false, false, false] }
    port := [.command 0x5000FB50] }

/-- The B6 calibration before its last sample. -/
def calibrating : State :=
  { State.reset with
    cfg := cal4
    cls := { Classifier.reset with hist := [0xFA56, 0xFA6A, 0xFA60] }
    port := [.command 0x8000FA64] }

/-- The B6 calibration when it is complete. -/
def calibrated : State :=
  { State.reset with
    cfg := cal4
    cls := { hist := [0xFA56, 0xFA6A, 0xFA60, 0xFA64], calValid := true, calBase2 := BitVec.ofInt 17 (-2876) } }

/-- The state that a command leaves. -/
def after (i : Instr) (s : State) : State :=
  match exec i s with
  | .next t => t
  | .fault _ => s
  | .refused _ => s

/-! Well-formedness: each check refuses an ill-formed term. -/

theorem test_wf_wrreg_named_number : (Instr.wrreg (.unimplemented 0x02) 30).wellFormed = false := by decide
theorem test_wf_rdreg_status_number : (Instr.rdreg (.unimplemented 0x40)).wellFormed = false := by decide
theorem test_wf_unimplemented_edges :
    (Instr.rdreg (.unimplemented 0x0D)).wellFormed = true ∧ (Instr.rdreg (.unimplemented 0x53)).wellFormed = true ∧
    (Instr.rdreg (.unimplemented 0x0C)).wellFormed = false ∧ (Instr.rdreg (.unimplemented 0x10)).wellFormed = false ∧
    (Instr.rdreg (.unimplemented 0x15)).wellFormed = false ∧ (Instr.rdreg (.unimplemented 0x52)).wellFormed = false := by
  decide
theorem test_params_vectors_legal : Params.vectors.Legal := by decide
theorem test_params_nmax_zero : ¬ ({ Params.vectors with nmax := 0 } : Params).Legal := by decide
theorem test_params_nmax_large : ¬ ({ Params.vectors with nmax := 65536 } : Params).Legal := by decide
theorem test_params_rawcap_multiple : ¬ ({ Params.vectors with rawCap := 40 } : Params).Legal := by decide
theorem test_params_rawcap_large : ¬ ({ Params.vectors with rawCap := 2097184 } : Params).Legal := by decide
theorem test_params_msgcap_zero : ¬ ({ Params.vectors with msgCap := 0 } : Params).Legal := by decide

/-! Decoding: the words of 95_test_vectors.md B1 (30_encoding.md R80 to R85). -/

theorem test_decode_nop : decode 0x0ABCDEF0 = .ok .nop := by decide
theorem test_decode_srst : decode 0x10000000 = .ok .srst := by decide
theorem test_decode_wrreg : decode 0x2002001E = .ok (.wrreg (.cfg .preLen) 30) := by decide
theorem test_decode_wrreg_reserved_bits : decode 0x2F02001E = .ok (.wrreg (.cfg .preLen) 30) := by decide
theorem test_decode_wrreg_unimplemented : decode 0x200D0001 = .ok (.wrreg (.unimplemented 0x0D) 1) := by decide
theorem test_decode_rdreg : decode 0x3040FFFF = .ok (.rdreg (.stat .status)) := by decide
theorem test_decode_start : decode 0x40000000 = .ok .start := by decide
theorem test_decode_sample : decode 0x50FFFA60 = .ok (.sample 0xFA60) := by decide
theorem test_decode_skip : decode 0x60000000 = .ok .skip := by decide
theorem test_decode_end : decode 0x70000000 = .ok .endCall := by decide
theorem test_decode_cals : decode 0x8000FA56 = .ok (.cals 0xFA56) := by decide
theorem test_decode_clrh : decode 0x90000000 = .ok .clrh := by decide
theorem test_decode_rdmsg : decode 0xA0000001 = .ok (.rdmsg 1) := by decide
theorem test_decode_rdraw : decode 0xB0000000 = .ok (.rdraw 0) := by decide
theorem test_decode_illegal : decode 0xF1234567 = .error (.illegalOpcode 0xF) := by decide
theorem test_decode_table_word : decodeTableWord 32 0x5000FA60 = some (.sample 0xFA60) := by decide
/-- 44_register_access.md R231 and 30_encoding.md R89, R90: the assembler's examples. -/
theorem test_assemble :
    (AsmLine.wrreg (.cfg .clsThr) (.plain (-960))).assemble = some [0x2005FC40] ∧
    (AsmLine.sample (.dB (-90))).assemble = some [0x5000FA60] ∧
    (AsmLine.sample (.plain 65536)).assemble = none ∧
    (AsmLine.bits (.plain 1) (.plain 0) [true, false]).assemble = some [0x50000001, 0x50000000] := by decide
/-- 30_encoding.md R90, last line: its three examples, as text. -/
theorem test_assemble_text :
    assembleText "WRREG PRE_LEN, 30\nSAMPLE -90dB ; idle\nSTART" =
      some [0x2002001E, 0x5000FA60, 0x40000000] := by decide
/-- 44_register_access.md R231: the example with a minus sign U+2212. -/
theorem test_assemble_minus : assembleText "WRREG CLS_THR, −960" = some [0x2005FC40] := by decide
/-- 95_test_vectors.md, program P2: commands 20 to 22 and 5, the latter twice and by the register's number. -/
theorem test_assemble_pseudo :
    assembleText "BITS -50dB, -70dB, 010\nREP 2, CFG 0x0B, 0x00AA" =
      some [0x5000FBA0, 0x5000FCE0, 0x5000FBA0, 0x200B00AA, 0x200B00AA] := by decide
/-- 30_encoding.md R89: a value above 65535 is an assembly error. -/
theorem test_assemble_text_error : assembleText "SAMPLE 65536" = none := by decide
/-- 30_encoding.md R99, R103: the bitstream and the tones of "Hi". -/
theorem test_tones_of_hi :
    toneGroups (bitstream [0x48, 0x69]) = [1, 0, 2, 0, 1, 2, 2, 1] := by decide

/-! One step of each command. -/

/-- R203: the state is unchanged. -/
theorem test_nop : exec .nop midway = .next midway := rfl
/-- B12: everything back at reset, while running. -/
theorem test_srst : (after .srst midway).call = Call.reset ∧ (after .srst midway).cfg = Cfg.reset := by decide
/-- R231: `WRREG PRE_LEN, 30`. -/
theorem test_wrreg_accepted :
    (after (.wrreg (.cfg .preLen) 30) State.reset).cfg = { Cfg.reset with preLen := 30 } := by decide
/-- B2: `WRREG MODE, 0x1000` is refused with CFGVAL. -/
theorem test_wrreg_tpol_refused :
    after (.wrreg (.cfg .mode) 0x1000) State.reset = { State.reset with err := 0x10 } := by decide
/-- R236: an s16 configuration register is not sign-extended, WSUM is. -/
theorem test_rdreg :
    (after (.rdreg (.cfg .clsThr)) midway).responses = [0x0000FC40] ∧
    (after (.rdreg (.stat .wsum)) midway).responses = [0xFFFFB500] := by decide
/-- B2: an unimplemented number responds 0 with ADDR. -/
theorem test_rdreg_unimplemented :
    after (.rdreg (.unimplemented 0x0D)) State.reset = { State.reset with err := 0x02, responses := [0] } := by decide
/-- B8: the reset configuration ends at once in SILENCE. -/
theorem test_start_silence : (after .start State.reset).call = { Call.reset with fsm := .silence } := by decide
/-- B9: the empty pattern enters the payload at once. -/
theorem test_start_empty_pattern :
    (after .start { State.reset with cfg := { pat4 with patLen := 0 } }).call.fsm = .payload := by decide
/-- R140's worked example: `SAMPLE −800` as record 40. -/
theorem test_sample_payload_bit :
    (after (.sample 0xFCE0) (reading a2 40)).call =
      { (reading a2 40).call with pos := 41, bitcnt := 1, acc := 1, bitn := 1 } := by decide
/-- R152: 29 samples of −720 and one of −719 are a transmission, 30 of −720 are silence. -/
theorem test_sample_presence :
    let s := { searching a2 39 with
      call := { (searching a2 39).call with wsum := BitVec.ofInt 32 (-20880), wcnt := 29 } }
    (after (.sample 0xFD31) s).call.fsm = .payload ∧ (after (.sample 0xFD30) s).call.fsm = .silence := by decide
/-- B8, third corner: the SKIP brings POS to 2 and the decision is taken. -/
theorem test_skip :
    let s := searching { Cfg.reset with preLen := 2, markThr := 0xFD30, payLen := 8, capBits := 8 } 1
    (after .skip { s with call := { s.call with wsum := BitVec.ofInt 32 (-640), wcnt := 1 } }).call =
      { s.call with
        fsm := .payload, pos := 2, wsum := BitVec.ofInt 32 (-640), wcnt := 1, skipCnt := 1, syncPos := 2 } := by decide
/-- B9, last row: no preamble, with its STATUS. -/
theorem test_end_unsynced :
    statusWord (after .endCall hunting).call false = 0x00000016 := by decide
/-- R208's example: END in the payload is SHORT. -/
theorem test_end_short : statusWord (after .endCall midway).call false = 0x00000625 := by decide
/-- B6: the median of the four samples, doubled. -/
theorem test_cals :
    (after (.cals 0xFA64) calibrating).cls.calBase2.toInt = -2876 ∧
    (after (.cals 0xFA64) calibrating).cls.calValid = true := by decide
/-- B6: −1700 is a glitch; 10_state.md R39: it is counted after a call has ended too. -/
theorem test_cals_glitch :
    (after (.cals 0xF95C) calibrating).call = { Call.reset with glitchCnt := 1 } ∧
    (after (.cals 0xF95C) { calibrating with call := { Call.reset with fsm := .done, glitchCnt := 2 } }).call.glitchCnt =
      3 := by decide
/-- R210's example. -/
theorem test_clrh : (after .clrh calibrated).cls = { hist := [], calValid := false, calBase2 := 0 } := by decide
/-- R240: byte 0 is 0x48; there is no byte 1. -/
theorem test_rdmsg :
    (after (.rdmsg 0) midway).responses = [0x48] ∧ (after (.rdmsg 1) midway).err = 0x40 := by decide
/-- R242's example. -/
theorem test_rdraw :
    (after (.rdraw 0) { State.reset with
      mem := { msg := [], raw := [true, true, false, false, true, false, true, true, false, true, false, false] } }).responses =
        [0xCB400000] := by decide

/-! Part results. -/

/-- B5, records 4 and 9. -/
theorem test_adaptive_mean :
    classifyBit adapt4 { Classifier.reset with hist := [0xFA60, 0xFA60, 0xFA60, 0xFA60] } 0xFB50 = some true ∧
    classifyBit adapt4 { Classifier.reset with hist := [0xFB50, 0xFA60, 0xFBA0, 0xFA60] } 0xFAFF = some false := by
  decide
/-- B6: −1278 is 1 and −1279 is 0. -/
theorem test_calibrated_boundary :
    classifyBit cal4 calibrated.cls 0xFB02 = some true ∧ classifyBit cal4 calibrated.cls 0xFB01 = some false := by decide
/-- B7: 1050 is 00, 1051 is nothing, 1496 is 10, 750 is no data symbol. -/
theorem test_tone_symbols :
    toneSymbol tones 1050 = some 0 ∧ toneSymbol tones 1051 = none ∧ toneSymbol tones 1496 = some 2 ∧
    toneSymbol tones 750 = none := by decide
/-- B9: the fourth bit completes the pattern. -/
theorem test_pattern_match :
    (after (.sample 1) hunting).call.fsm = .payload ∧ (after (.sample 1) hunting).call.syncBit = 4 := by decide
/-- B1, R84: an illegal word sets ILL and nothing else. -/
theorem test_step_illegal :
    step { State.reset with port := [.command 0xC0000000] } = .next { State.reset with err := 0x01 } := rfl
/-- The word placed for the next step is the next step's command. -/
theorem test_fetch_word : step (State.reset.withFetchWord 32 0x30510000) =
    .next { State.reset with responses := [0x1000] } := rfl

/-! Hypotheses met: for each statement that has any, an instance, clause by clause. -/

theorem witness_DecodeInvertsEncode : (Instr.wrreg (.unimplemented 0xFF) 0xFFFF).wellFormed = true := by decide
theorem witness_EncodeKeepsUsedBits : decode 0x2F02001E = .ok (.wrreg (.cfg .preLen) 30) := by decide
theorem witness_UnusedBitsIgnored :
    decode 0x30400000 = .ok (.rdreg (.stat .status)) ∧
    0x3F40FFFF#32 &&& (Instr.rdreg (.stat .status)).formatMask =
      0x30400000#32 &&& (Instr.rdreg (.stat .status)).formatMask := by decide
theorem witness_IllegalOpcodeRaisesIll : 0xC ≤ (opField 0xC0000000).toNat ∧ (opField 0xBFFFFFFF).toNat < 0xC := by decide
theorem witness_StepRunsDecodedCommand :
    midway.port = [.command 0x5000FCE0] ∧ decode 0x5000FCE0 = .ok (.sample 0xFCE0) := by decide
theorem witness_NopChangesNothing : opField 0x0FFFFFFF = 0 := by decide
theorem witness_ResetValues :
    (∃ t, exec .srst midway = .next t) ∧
    ∃ t, step { midway with port := [.hardwareReset] } = .next t := ⟨⟨_, rfl⟩, _, rfl⟩
theorem witness_SrstGivesResetState :
    ({ midway with port := [.hardwareReset] } : State).port = [.hardwareReset] := by decide
theorem witness_StartOpensCall :
    midway.call.fsm.running = true ∧ hunting.call.fsm.running = true ∧ State.reset.call.fsm.running = false ∧
    (State.reset.cfg.sync = .pos ∧ State.reset.cfg.preStart = 0 ∧ State.reset.cfg.preLen = 0) ∧
    (({ pat4 with patLen := 0 } : Cfg).sync = .pat ∧ ({ pat4 with patLen := 0 } : Cfg).patLen = 0) := by decide
theorem witness_EndClosesCall :
    State.reset.call.fsm = .idle ∧ (hunting.call.fsm = .search ∧ hunting.cfg.sync = .pat) ∧
    ((searching tones 0).call.fsm = .search ∧ (searching tones 0).cfg.sync ≠ .pat) ∧
    (midway.call.fsm = .payload ∧ midway.cfg.sync ≠ .tone) ∧
    ((reading tones 1).call.fsm = .payload ∧ (reading tones 1).cfg.sync = .tone) ∧
    (after .endCall midway).call.fsm.terminal = true := by decide
theorem witness_ClrhClearsHistory :
    warm.call.fsm.running = true ∧ calibrated.call.fsm.running = false := by decide
theorem witness_WrregWritesOrRefuses_busy : midway.call.fsm.running = true := by decide
theorem witness_WrregWritesOrRefuses_addr :
    State.reset.call.fsm.running = false ∧ ∀ r, Reg.stat .status ≠ .cfg r := ⟨by decide, fun _ => nofun⟩
theorem witness_WrregWritesOrRefuses_value :
    State.reset.call.fsm.running = false ∧ ¬ (1 ≤ (33#16).toNat ∧ (33#16).toNat ≤ State.reset.params.nmax) ∧
    (1 ≤ (32#16).toNat ∧ (32#16).toNat ≤ State.reset.params.nmax) ∧
    ((0x0122#16) &&& 0xFECC = 0 ∧ (0x0122#16).extractLsb' 0 2 ≠ 3 ∧ (0x0122#16).extractLsb' 4 2 ≠ 3) ∧
    ¬ (0x1000#16) &&& 0xFECC = 0 ∧ (16#16).toNat ≤ 16 ∧ ¬ (17#16).toNat ≤ 16 := by decide
theorem witness_RdregResponds :
    (StatReg.calBase2, BitVec.ofInt 32 calibrated.cls.calBase2.toInt) ∈
      [(StatReg.calBase2, BitVec.ofInt 32 calibrated.cls.calBase2.toInt), (.wsum, calibrated.call.wsum)] := by decide
theorem witness_RdmsgResponds :
    (0#16).toNat < midway.mem.msg.length ∧ midway.mem.msg.length ≤ (1#16).toNat := by decide
theorem witness_RdrawResponds :
    32 * (0#16).toNat < midway.mem.raw.length ∧ midway.mem.raw.length ≤ 32 * (1#16).toNat := by decide
theorem witness_OneResponsePerRead :
    (∃ t, exec (.rdmsg 0) midway = .next t) ∧ (∃ t, exec .skip midway = .next t) := ⟨⟨_, rfl⟩, ⟨_, rfl⟩⟩
theorem witness_CalsCalibrates :
    (warm.call.fsm.running = true ∨ warm.cfg.policy ≠ .cal) ∧
    (calibrating.call.fsm.running = false ∧ calibrating.cfg.policy = .cal) ∧
    (0xF9BF#16).toInt < calibrating.cfg.glitch.toInt ∧ calibrating.cfg.glitch.toInt ≤ (0xF9C0#16).toInt ∧
    calibrated.cls.calValid = true ∧ calibrating.cls.calValid = false ∧
    calibrating.cls.hist.length + 1 = calibrating.cfg.calLen.toNat ∧
    State.reset.cls.hist.length + 1 ≠ calibrating.cfg.calLen.toNat := by decide
theorem witness_MedianOfSortedSamples :
    ([-1450, -1440, -1430] : List Int).Perm (([0xFA56, 0xFA6A, 0xFA60] : List Half).map BitVec.toInt) ∧
    ([-1450, -1440, -1430] : List Int).Pairwise (· ≤ ·) ∧
    ([0xFA56, 0xFA6A, 0xFA60] : List Half).length = 2 * 1 + 1 ∧ calibrated.cls.hist.length = 2 * 1 + 2 := by decide
theorem witness_FixedThresholdIsStrict :
    midway.cfg.policy = .fixed ∧ midway.cfg.clsThr.toInt < (0xFC41#16).toInt ∧
    (0xFC40#16).toInt ≤ midway.cfg.clsThr.toInt := by decide
theorem witness_BaselineTestsAreExact :
    (adapt4.policy = .adapt ∧ adapt4.baseMedian = false ∧ warm.cls.hist ≠ []) ∧
    (({ adapt4 with mode := 0x0111 } : Cfg).policy = .adapt ∧ ({ adapt4 with mode := 0x0111 } : Cfg).baseMedian = true) ∧
    (cal4.policy = .cal ∧ calibrated.cls.calValid = true) := by decide
theorem witness_AdaptPushesAndEvicts :
    warm.cfg.policy = .adapt ∧ Classifier.reset.hist = [] ∧ 1 ≤ warm.cfg.win.toNat ∧
    warm.cls.hist = 0xFA60 :: [0xFA60, 0xFA60, 0xFA60] ∧ warm.cfg.win.toNat ≤ warm.cls.hist.length ∧
    ([0xFA60, 0xFA60, 0xFA60] : List Half).length < warm.cfg.win.toNat := by decide
theorem witness_UncalibratedGivesNoBit :
    cal4.policy = .cal ∧ calibrating.cls.calValid = false ∧ calibrated.cls.calValid = true := by decide
theorem witness_ConstantStreamReadsZero :
    adapt4.policy = .adapt ∧ warm.cls.hist = List.replicate (3 + 1) 0xFA60 := by decide
theorem witness_ToneSymbolIsLeastMatch :
    (∀ j k, j ≠ k → 2 * tones.toneTol.toNat < toneDistance (tones.toneF j) (tones.toneF k)) ∧
    toneDistance 1050 (tones.toneF 0) ≤ tones.toneTol.toNat := by decide
theorem witness_EnterPayloadRecordsSync :
    (a2.sync ≠ .tone ∧ (({ a2 with payLen := 0 } : Cfg).payLen = 0)) ∧ tones.sync = .tone ∧
    (a2.payLen ≠ 0 ∧ a2.capBits ≠ 0) := by decide
theorem witness_EmitBitInPayload :
    midway.call.fsm = .payload ∧ midway.mem.msg.length < midway.params.msgCap ∧ midway.call.bitn ≠ 7 ∧
    ({ midway.call with bitn := 7 } : Call).bitn = 7 ∧
    ({ midway.params with msgCap := 1 } : Params).msgCap ≤ midway.mem.msg.length := by decide
theorem witness_EmitBitInSearch :
    hunting.call.fsm = .search ∧ (pat4.patLen.toNat ≤ (4#32).toNat ∧
      ∀ j < pat4.patLen.toNat, (3#16).getLsbD j = pat4.pat.getLsbD j) ∧
    (3#32).toNat < pat4.patLen.toNat ∧ ∃ j < pat4.patLen.toNat, (2#16).getLsbD j ≠ pat4.pat.getLsbD j :=
  ⟨by decide, by decide, by decide, 0, by decide, by decide⟩
theorem witness_PatternMatchIsSuffixMatch :
    hunting.cfg.patLen.toNat ≤ 16 ∧ hunting.mem.raw.length = hunting.call.bitcnt.toNat ∧
    ∀ j < 16, hunting.call.sr.getLsbD j = hunting.mem.raw.reverse.getD j false := by decide
theorem witness_ReassemblyInvertsBitstream :
    let s := reading { pat4 with payLen := 16 } 4
    ([0x48, 0x69] : List Byte) ≠ [] ∧ ([0x48, 0x69] : List Byte).length ≤ s.params.msgCap ∧ s.call.fsm = .payload ∧
    s.cfg.sync = .pat ∧ s.mem.msg = [] ∧ s.call.bitn = 0 ∧ s.call.bitcnt = s.call.syncBit ∧
    s.call.bitcnt.toNat + 8 * ([0x48, 0x69] : List Byte).length ≤ 0xFFFFFFFF ∧
    min s.cfg.payLen.toNat s.cfg.capBits.toNat = 8 * ([0x48, 0x69] : List Byte).length := by decide
theorem witness_PosCheckDecides :
    tones.sync ≠ .pos ∧ (a2.sync = .pos ∧ (searching a2 40).call.fsm = .search) ∧
    (searching a2 39).call.pos.toNat ≠ a2.preStart.toNat + a2.preLen.toNat ∧
    ((searching a2 40).call.pos.toNat = a2.preStart.toNat + a2.preLen.toNat ∧ present (searching a2 40) = false) ∧
    (({ midway with call := { midway.call with fsm := .search, pos := 40 } } : State).call.pos.toNat =
      a2.preStart.toNat + a2.preLen.toNat ∧ present midway = true) ∧
    ((reading a2 56).call.fsm = .payload ∧
      (reading a2 56).call.pos.toNat = a2.preStart.toNat + a2.preLen.toNat + a2.payloadLen) ∧
    midway.call.pos.toNat ≠ a2.preStart.toNat + a2.preLen.toNat + a2.payloadLen ∧
    State.reset.call.fsm.running = false := by decide
theorem witness_RecordsGatedByState :
    State.reset.call.fsm = .idle ∧ (after .start State.reset).call.fsm.terminal = true := by decide
theorem witness_SkipConsumesIndex :
    State.reset.call.fsm = .idle ∧ (after .start State.reset).call.fsm.terminal = true ∧
    midway.call.fsm.running = true := by decide
theorem witness_ToneHandshakeSyncs :
    (searching tones 0).call.fsm = .search ∧ (searching tones 0).cfg.sync = .tone ∧
    toneDistance 800 tones.toneHs ≤ tones.toneTol.toNat ∧ tones.toneTol.toNat < toneDistance 801 tones.toneHs := by decide
theorem witness_ToneSymbolEmitsTwoBits :
    (reading tones 1).call.fsm = .payload ∧ (reading tones 1).cfg.sync = .tone ∧ toneSymbol tones 1125 = none ∧
    toneSymbol tones 1800 = some 3 ∧ (reading tones 1).mem.raw.length + 2 ≤ (reading tones 1).params.rawCap ∧
    (reading tones 1).mem.msg.length < (reading tones 1).params.msgCap := by decide
theorem witness_GlitchIsDiscarded :
    warm.call.fsm.running = true ∧ warm.cfg.sync ≠ .tone ∧ (0xF9BF#16).toInt < warm.cfg.glitch.toInt := by decide
theorem witness_PreambleWindowAccumulates_inside :
    Classified 0xFD80 (searching a2 10) ∧ (searching a2 10).cfg.sync = .pos ∧ (searching a2 10).call.fsm = .search ∧
    WindowOk (searching a2 10) ∧ a2.preStart.toNat ≤ (searching a2 10).call.pos.toNat :=
  ⟨by decide, by decide, by decide, by decide, by decide⟩
theorem witness_PreambleWindowAccumulates_last :
    Classified 0xFD80 (searching a2 39) ∧ WindowOk (searching a2 39) ∧
    (searching a2 39).call.pos.toNat + 1 = a2.preStart.toNat + a2.preLen.toNat := ⟨by decide, by decide, by decide⟩
theorem witness_PreambleWindowAccumulates_before :
    Classified 0xFD80 (searching a2 9) ∧ (searching a2 9).cfg.sync = .pos ∧ (searching a2 9).call.fsm = .search ∧
    WindowOk (searching a2 9) ∧ (searching a2 9).call.pos.toNat < a2.preStart.toNat :=
  ⟨by decide, by decide, by decide, by decide, by decide⟩
theorem witness_PositionalPayloadEmits :
    Classified 0xFCE0 midway ∧ midway.cfg.sync = .pos ∧ midway.call.fsm = .payload ∧
    classifyBit midway.cfg midway.cls 0xFCE0 = some true := by decide
theorem witness_PositionalPayloadEmits_none :
    let s := reading { adapt4 with mode := 0x0010 } 0
    Classified 0xFA60 s ∧ s.cfg.sync = .pos ∧ s.call.fsm = .payload ∧ classifyBit s.cfg s.cls 0xFA60 = none := by decide
theorem witness_PatternModeEmitsEveryBit :
    Classified 1 hunting ∧ hunting.cfg.sync = .pat ∧ classifyBit hunting.cfg hunting.cls 1 = some true ∧
    classifyBit adapt4 Classifier.reset 1 = none := by decide
theorem witness_PosCountsRecords :
    (∃ t, exec (.sample 0) midway = .next t) ∧ midway.call.fsm.running = true ∧
    State.reset.call.fsm.running = false := ⟨⟨_, rfl⟩, by decide, by decide⟩
theorem witness_SampleFrame : midway.call.fsm ≠ .idle ∧ ∃ t, exec (.sample 0) midway = .next t := ⟨by decide, _, rfl⟩
theorem witness_BuffersAppendOnly :
    (∃ t, exec (.sample 0) midway = .next t) ∧ (∃ t, exec .endCall midway = .next t) ∧
    (after .endCall midway).call.fsm.terminal = true ∧ ∃ t, exec .skip (after .endCall midway) = .next t :=
  ⟨⟨_, rfl⟩, ⟨_, rfl⟩, rfl, _, rfl⟩
theorem witness_FsmFollowsTable : ∃ t, exec (.sample 1) hunting = .next t ∧ t.call.fsm = .payload := ⟨_, rfl, rfl⟩
theorem witness_AtMostOneErrorBit : Instr.cals 0 ≠ .srst ∧ ∃ t, exec (.cals 0) warm = .next t ∧ t.err = 0x04 :=
  ⟨by decide, _, rfl, rfl⟩
theorem witness_ErrorsAreSticky :
    let s := { warm with err := 0x40 }
    s.err.getLsbD 6 = true ∧ ∃ t, step s = .next t := ⟨rfl, _, rfl⟩
theorem witness_ConfigurationLockedWhileRunning :
    midway.call.fsm.running = true ∧ ∃ t, step midway = .next t := ⟨rfl, _, rfl⟩
theorem witness_HistoryLifetime : ∃ t, exec (.cals 0xFA64) calibrating = .next t ∧ t.cls = calibrated.cls :=
  ⟨_, rfl, rfl⟩
theorem witness_ResetMeetsInvariant : Params.vectors.Legal := by decide
theorem witness_StepKeepsConfigurationLegal : ConfigOk warm ∧ ∃ t, step warm = .next t := ⟨by decide, _, rfl⟩
theorem witness_StepKeepsHistoryBounds :
    (ConfigOk warm ∧ HistoryOk warm ∧ ∃ t, step warm = .next t) ∧
    (ConfigOk calibrating ∧ HistoryOk calibrating ∧ ∃ t, step calibrating = .next t) ∧
    ConfigOk (searching tones 0) ∧ HistoryOk (searching tones 0) ∧ ∃ t, step (searching tones 0) = .next t :=
  ⟨⟨by decide, by decide, _, rfl⟩, ⟨by decide, by decide, _, rfl⟩, by decide, by decide, _, rfl⟩
theorem witness_StepKeepsBuffersCounted : midway.params.Legal ∧ BuffersOk midway ∧ ∃ t, step midway = .next t :=
  ⟨by decide, by decide, _, rfl⟩
theorem witness_StepKeepsCallState : CallOk midway ∧ ∃ t, step midway = .next t := ⟨by decide, _, rfl⟩
theorem witness_StepKeepsWindow : WindowOk midway ∧ ∃ t, step midway = .next t := ⟨by decide, _, rfl⟩
theorem witness_StepKeepsMessageRegrouped :
    midway.params.Legal ∧ BuffersOk midway ∧ CallOk midway ∧ PayloadOk midway ∧ MessageOk midway ∧
      ∃ t, step midway = .next t :=
  ⟨by decide, by decide, by decide, by decide, by decide, _, rfl⟩
theorem witness_StepKeepsShiftRegister :
    hunting.params.Legal ∧ BuffersOk hunting ∧ ShiftOk hunting ∧ ∃ t, step hunting = .next t :=
  ⟨by decide, by decide, by decide, _, rfl⟩

end Sys2Proof.Tests
end

section
/-! SUPPORT. What a running `SAMPLE` can do, said once (spec 41_synchronizer.md R140, R145, R146, R165 to R167), and what
every change of a step keeps of the sizes and the configuration. -/

namespace Sys2Proof.Machine

variable {s t x : State}

/-- States of the same core differ in errors, port and responses alone. -/
theorem SameCore.eq_with (h : SameCore t s) :
    t = ((s.withErr t.err).withPort t.port).withResponses t.responses := by
  obtain ⟨hp, hc, hl, hk, hm⟩ := h
  exact State.ext_fields hp hc hl hk rfl hm rfl rfl

/-- What a running `SAMPLE` does: the branches of R140, each under the condition that takes it. -/
inductive SampleEffect (d : Half) (s : State) : State → Prop
  | handshake : s.cfg.sync = .tone → s.call.fsm = .search → SampleEffect d s (enterPayload (advancePos s))
  | otherTone : s.cfg.sync = .tone → s.call.fsm = .search → SampleEffect d s (advancePos s)
  | drop : s.cfg.sync = .tone → s.call.fsm ≠ .search → SampleEffect d s (countDrop (advancePos s))
  | symbol (k : BitVec 2) : s.cfg.sync = .tone → s.call.fsm ≠ .search →
      SampleEffect d s (emitBit (k.getLsbD 0) (emitBit (k.getLsbD 1) (advancePos s)))
  | glitched : s.cfg.sync ≠ .tone → glitch s.cfg d = true →
      SampleEffect d s (posCheck (countGlitch (advancePos s)))
  | noBit : s.cfg.sync ≠ .tone → glitch s.cfg d = false →
      SampleEffect d s (posCheck (classifyUpdate d (windowSample s.call.pos.toNat d (advancePos s))))
  | bit (b : Bool) : s.cfg.sync ≠ .tone → glitch s.cfg d = false →
      s.cfg.sync = .pat ∨ s.call.fsm = .payload →
      SampleEffect d s
        (posCheck (emitBit b (classifyUpdate d (windowSample s.call.pos.toNat d (advancePos s)))))

/-- `Classify` is followed by one bit, in pattern mode or `PAYLOAD`, or by none (R145, R146). -/
theorem classifyAndEmit_cases (v : Half) (s : State) :
    classifyAndEmit v s = classifyUpdate v s ∨
      ((s.cfg.sync = .pat ∨ s.call.fsm = .payload) ∧
        ∃ b, classifyAndEmit v s = emitBit b (classifyUpdate v s)) := by
  unfold classifyAndEmit
  cases classifyBit s.cfg s.cls v with
  | none => exact .inl rfl
  | some b =>
    by_cases h : s.cfg.sync = .pat ∨ s.call.fsm = .payload
    · exact .inr ⟨h, b, if_pos h⟩
    · exact .inl (if_neg h)

theorem sampleTone_effect {d : Half} (hm : s.cfg.sync = .tone) :
    SampleEffect d s (sampleTone d (advancePos s)) := by
  by_cases hf : s.call.fsm = .search
  · by_cases hh : toneMatch s.cfg d s.cfg.toneHs = true
    · simpa [sampleTone, hf, hh] using SampleEffect.handshake hm hf
    · simpa [sampleTone, hf, hh] using SampleEffect.otherTone hm hf
  · cases hk : toneSymbol s.cfg d with
    | none => simpa [sampleTone, hf, hk] using SampleEffect.drop hm hf
    | some k => simpa [sampleTone, hf, hk] using SampleEffect.symbol k hm hf

theorem samplePower_effect {d : Half} (hm : s.cfg.sync ≠ .tone) :
    SampleEffect d s (samplePower s.call.pos.toNat d (advancePos s)) := by
  cases hg : glitch s.cfg d with
  | true => simpa [samplePower, hg] using SampleEffect.glitched hm hg
  | false =>
    have hs : samplePower s.call.pos.toNat d (advancePos s) =
        posCheck (classifyAndEmit d (windowSample s.call.pos.toNat d (advancePos s))) := by
      simp [samplePower, hg]
    rcases classifyAndEmit_cases d (windowSample s.call.pos.toNat d (advancePos s)) with he | ⟨hb, b, he⟩
    · rw [hs, he]
      exact .noBit hm hg
    · rw [hs, he]
      exact .bit b hm hg (by simpa using hb)

/-- Every case of a `SAMPLE` accepted while running (R140). -/
theorem sampleRunning_effect (d : Half) (s : State) : SampleEffect d s (sampleRunning d s) := by
  unfold sampleRunning
  split
  next hm => exact sampleTone_effect hm
  next hm => exact samplePower_effect hm

theorem SampleEffect.cfg {d : Half} (h : SampleEffect d s x) : x.cfg = s.cfg := by
  cases h <;> simp

theorem Change.params (h : Change s x) : x.params = s.params := by
  cases h <;> simp

/-- The configuration changes by a reset and by an accepted `WRREG` alone (10_state.md R25). -/
theorem Change.cfg (h : Change s x) :
    x.cfg = s.cfg ∨ x.cfg = Cfg.reset ∨
      ∃ r d, legalValue s.params r d = true ∧ x.cfg = s.cfg.write r d := by
  cases h with
  | reset => exact .inr (.inl rfl)
  | write r d _ hl => exact .inr (.inr ⟨r, d, hl, writeCfg_cfg s r d⟩)
  | _ => simp

end Sys2Proof.Machine
end

section
/-! SUPPORT. The configuration stays legal (spec 10_state.md R25, R26, 44_register_access.md R234). -/

namespace Sys2Proof.Machine

variable {s t x : State}

theorem cfgReset_legal {p : Params} (hp : p.Legal) : Cfg.reset.Legal p := by
  obtain ⟨⟨hn, _⟩, _, _⟩ := hp
  exact ⟨by decide, ⟨by decide, hn⟩, ⟨by decide, hn⟩, by decide⟩

/-- A legal value in one register leaves the configuration legal: `Legal(reg, data)` of R234 is what `Cfg.Legal` asks of
that register. -/
theorem cfgWrite_legal {p : Params} {c : Cfg} {r : CfgReg} {d : Half} (hc : c.Legal p)
    (hv : legalValue p r d = true) : (c.write r d).Legal p := by
  obtain ⟨hmode, hwin, hcal, hpat⟩ := hc
  cases r with
  | mode => exact ⟨hv, hwin, hcal, hpat⟩
  | win => exact ⟨hmode, by simpa [legalValue, Cfg.write, zext16] using hv, hcal, hpat⟩
  | calLen => exact ⟨hmode, hwin, by simpa [legalValue, Cfg.write, zext16] using hv, hpat⟩
  | patLen => exact ⟨hmode, hwin, hcal, by simpa [legalValue, Cfg.write, zext16] using hv⟩
  | _ => exact ⟨hmode, hwin, hcal, hpat⟩

theorem Change.configOk (h : Change s x) (hs : ConfigOk s) : ConfigOk x := by
  obtain ⟨hp, hc⟩ := hs
  simp only [ConfigOk, h.params]
  refine ⟨hp, ?_⟩
  rcases h.cfg with hx | hx | ⟨r, d, hv, hx⟩ <;> rw [hx]
  · exact hc
  · exact cfgReset_legal hp
  · exact cfgWrite_legal hc hv

/-- Settles O54: `Cfg.Legal` holds of the reset values and is kept by each accepted write. -/
theorem stepKeepsConfigurationLegal : Obligations.StepKeepsConfigurationLegal := fun _ _ hs h =>
  step_preserves (Q := fun _ => True) (fun _ _ _ h => h) (fun _ _ hc hs => by rw [hc.eq_with]; exact hs)
    (fun _ _ hx _ hs => hx.configOk hs) trivial hs h

end Sys2Proof.Machine
end

section
/-! SUPPORT. The buffers against the bit counter (spec 10_state.md R38, 42_reassembler.md R181, R183). -/

namespace Sys2Proof.Machine

variable {s t x : State}

/-- `BuffersOk` looks at the sizes, the buffers, `BITCNT` and `RAWOVF` alone. -/
theorem buffersOk_congr (hp : t.params = s.params) (hm : t.mem = s.mem)
    (hb : t.call.bitcnt = s.call.bitcnt) (ho : t.call.rawovf = s.call.rawovf) (h : BuffersOk s) : BuffersOk t := by
  rw [BuffersOk, hp, hm, hb, ho]
  exact h

/-- Empty buffers and no bit counted. -/
theorem buffersOk_of_empty (hm : s.mem = Memory.reset) (hb : s.call.bitcnt = 0) (ho : s.call.rawovf = false) :
    BuffersOk s := by
  rw [BuffersOk, hm, hb, ho]
  exact ⟨memory_reset_wf _, by simp [Memory.reset], by simp⟩

/-- `EmitBit` counts the bit and stores it exactly if there is room; `RAW_CAP ≤ 2^21` (00_scope.md R11) keeps the counter's
saturation out of the comparison. -/
theorem emitBit_buffersOk (b : Bool) (hp : s.params.Legal) (h : BuffersOk s) : BuffersOk (emitBit b s) := by
  obtain ⟨_, ⟨_, _, hcap⟩, _⟩ := hp
  obtain ⟨hwf, hlen, hovf⟩ := h
  refine ⟨emitBit_wf b hwf, ?_, ?_⟩
  · rw [emitBit_mem_raw, emitBit_call_bitcnt, emitBit_params, bump32_toNat]
    split
    · rw [List.length_append, List.length_singleton]
      omega
    · omega
  · rw [emitBit_call_rawovf, emitBit_call_bitcnt, emitBit_params, bump32_toNat, hovf, Bool.eq_iff_iff]
    simp only [Bool.or_eq_true, Bool.not_eq_true', decide_eq_true_eq, decide_eq_false_iff_not]
    omega

theorem SampleEffect.buffersOk {d : Half} (h : SampleEffect d s x) (hp : s.params.Legal) (hs : BuffersOk s) :
    BuffersOk x := by
  cases h with
  | symbol k _ _ => exact emitBit_buffersOk _ (by simpa using hp) (emitBit_buffersOk _ hp hs)
  | bit b _ _ _ =>
    have hu : BuffersOk (classifyUpdate d (windowSample s.call.pos.toNat d (advancePos s))) :=
      buffersOk_congr (by simp) (by simp) (by simp) (by simp) hs
    exact buffersOk_congr (posCheck_params _) (posCheck_mem _) (posCheck_call_bitcnt _) (posCheck_call_rawovf _)
      (emitBit_buffersOk b (by simpa using hp) hu)
  | _ => exact buffersOk_congr (by simp) (by simp) (by simp) (by simp) hs

@[simp] theorem endSearch_call_bitcnt (s : State) : (endSearch s).call.bitcnt = s.call.bitcnt := by
  unfold endSearch; split <;> simp

@[simp] theorem endSearch_call_rawovf (s : State) : (endSearch s).call.rawovf = s.call.rawovf := by
  unfold endSearch; split <;> simp

@[simp] theorem endPayload_call_bitcnt (s : State) : (endPayload s).call.bitcnt = s.call.bitcnt := by
  unfold endPayload; split <;> simp

@[simp] theorem endPayload_call_rawovf (s : State) : (endPayload s).call.rawovf = s.call.rawovf := by
  unfold endPayload; split <;> simp

theorem Change.buffersOk (h : Change s x) (hp : s.params.Legal) (hs : BuffersOk s) : BuffersOk x := by
  cases h with
  | reset => exact buffersOk_of_empty rfl rfl rfl
  | start _ => exact buffersOk_of_empty (by simp) (by simp [Call.reset]) (by simp [Call.reset])
  | sample d _ => exact (sampleRunning_effect d s).buffersOk hp hs
  | _ => exact buffersOk_congr (by simp) (by simp) (by simp) (by simp) hs

/-- Settles O56: of the changes that a step can make, only bits emitted by a `SAMPLE` fill the buffers, and each bit
keeps the count. -/
theorem stepKeepsBuffersCounted : Obligations.StepKeepsBuffersCounted := fun _ _ hp hs h =>
  step_preserves (Q := fun s => s.params.Legal) (fun _ _ hc hp => by rw [hc.eq_with]; exact hp)
    (fun _ _ hc hs => by rw [hc.eq_with]; exact hs) (fun _ _ hx hp hs => hx.buffersOk hp hs) hp hs h

end Sys2Proof.Machine
end

section
/-! SUPPORT. The matcher's shift register against `RAW` (spec 10_state.md R42, 60_exceptions.md R265). -/

namespace Sys2Proof.Machine

variable {s t x : State}

theorem shiftOk_of_not_search (h : s.call.fsm ≠ .search) : ShiftOk s := fun hf => absurd hf h

theorem shiftOk_of_not_pat (h : s.cfg.sync ≠ .pat) : ShiftOk s := fun _ hm => absurd hm h

/-- `ShiftOk` looks at the sizes, the configuration, the buffers, `FSM`, `BITCNT` and the register alone. -/
theorem shiftOk_congr (hp : t.params = s.params) (hc : t.cfg = s.cfg) (hm : t.mem = s.mem)
    (hf : t.call.fsm = s.call.fsm) (hb : t.call.bitcnt = s.call.bitcnt) (hr : t.call.sr = s.call.sr)
    (h : ShiftOk s) : ShiftOk t := by
  rw [ShiftOk, hp, hc, hm, hf, hb, hr]
  exact h

/-- `PosCheck` is of positional mode alone (41_synchronizer.md R171). -/
theorem posCheck_of_not_pos (h : s.cfg.sync ≠ .pos) : posCheck s = s := by
  simp [posCheck, h]

theorem endSearch_not_running (s : State) : (endSearch s).call.fsm.running = false := by
  unfold endSearch
  split <;> rfl

theorem endPayload_not_running (s : State) : (endPayload s).call.fsm.running = false := by
  unfold endPayload
  split <;> rfl

theorem Fsm.ne_search_of_not_running {f : Fsm} (h : f.running = false) : f ≠ .search := by
  rintro rfl
  cases h

/-- No bit takes a call back to `SEARCH` (42_reassembler.md R181). -/
theorem fsm_search_of_emitBit {b : Bool} (h : (emitBit b s).call.fsm = .search) : s.call.fsm = .search := by
  cases hf : s.call.fsm with
  | search => rfl
  | payload =>
    rw [emitBit_payload_fsm s b hf] at h
    split at h <;> cases h
  | _ => simp [emitBit, hf] at h

theorem emitBit_search_sr (b : Bool) (h : s.call.fsm = .search) :
    (emitBit b s).call.sr = shiftIn s.call.sr b := by
  rw [emitBit_search s b h]
  unfold searchBit
  dsimp only
  split <;> simp

/-- The register and `RAW` take the bit in at the same end, as long as `RAW` has room for it. -/
theorem emitBit_shiftOk (b : Bool) (hp : s.params.Legal) (hb : BuffersOk s) (hs : ShiftOk s) :
    ShiftOk (emitBit b s) := by
  obtain ⟨_, ⟨_, _, hcap⟩, _⟩ := hp
  obtain ⟨_, hlen, _⟩ := hb
  intro hf hm hc j hj
  rw [emitBit_cfg] at hm
  rw [emitBit_call_bitcnt, emitBit_params, bump32_toNat] at hc
  have hsearch := fsm_search_of_emitBit hf
  have hroom : s.mem.raw.length < s.params.rawCap := by omega
  rw [emitBit_search_sr b hsearch, getLsbD_shiftIn _ _ _ hj, emitBit_mem_raw, if_pos hroom, List.reverse_concat]
  cases j with
  | zero => rfl
  | succ j => exact hs hsearch hm (by omega) j (by omega)

theorem SampleEffect.shiftOk {d : Half} (h : SampleEffect d s x) (hp : s.params.Legal) (hb : BuffersOk s)
    (hs : ShiftOk s) : ShiftOk x := by
  by_cases hm : s.cfg.sync = .pat
  case neg => exact shiftOk_of_not_pat (by rw [h.cfg]; exact hm)
  have hpos : s.cfg.sync ≠ .pos := by simp [hm]
  cases h with
  | handshake ht _ => simp [hm] at ht
  | otherTone ht _ => simp [hm] at ht
  | drop ht _ => simp [hm] at ht
  | symbol k ht _ => simp [hm] at ht
  | glitched _ _ =>
    rw [posCheck_of_not_pos (by simpa using hpos)]
    exact hs
  | noBit _ _ =>
    rw [posCheck_of_not_pos (by simpa using hpos)]
    exact shiftOk_congr (by simp) (by simp) (by simp) (by simp) (by simp) (by simp) hs
  | bit b _ _ _ =>
    rw [posCheck_of_not_pos (by simpa using hpos)]
    exact emitBit_shiftOk b (by simpa using hp) (buffersOk_congr (by simp) (by simp) (by simp) (by simp) hb)
      (shiftOk_congr (by simp) (by simp) (by simp) (by simp) (by simp) (by simp) hs)

/-- A call just started has an empty register and an empty `RAW`. -/
theorem decideAtStart_shiftOk (s : State) : ShiftOk (decideAtStart (openCall s)) := by
  intro _ _ _ j _
  simp [Call.reset, Memory.reset]

theorem Change.shiftOk (h : Change s x) (hp : s.params.Legal) (hb : BuffersOk s) (hs : ShiftOk s) :
    ShiftOk x := by
  cases h with
  | same => exact hs
  | reset => exact shiftOk_of_not_search (by simp [Call.reset])
  | start _ => exact decideAtStart_shiftOk s
  | sample d _ => exact (sampleRunning_effect d s).shiftOk hp hb hs
  | skip _ =>
    by_cases hm : s.cfg.sync = .pos
    · exact shiftOk_of_not_pat (by simp [hm])
    · rw [posCheck_of_not_pos (by simpa using hm)]
      exact hs
  | endSearch _ => exact shiftOk_of_not_search (Fsm.ne_search_of_not_running (endSearch_not_running s))
  | endPayload _ => exact shiftOk_of_not_search (Fsm.ne_search_of_not_running (endPayload_not_running s))
  | write _ _ hn _ => exact shiftOk_of_not_search (by simpa using Fsm.ne_search_of_not_running hn)
  | calibrate _ hn _ _ => exact shiftOk_of_not_search (by simpa using Fsm.ne_search_of_not_running hn)
  | calsGlitch hn => exact shiftOk_of_not_search (by simpa using Fsm.ne_search_of_not_running hn)
  | clear hn => exact shiftOk_of_not_search (by simpa using Fsm.ne_search_of_not_running hn)

/-- Settles O60: in `SEARCH` only a bit moves the register, and it moves `RAW` along. -/
theorem stepKeepsShiftRegister : Obligations.StepKeepsShiftRegister := fun _ _ hp hb hs h =>
  step_preserves (Q := fun s => s.params.Legal ∧ BuffersOk s)
    (fun _ _ hc hq => by rw [hc.eq_with]; exact hq) (fun _ _ hc hs => by rw [hc.eq_with]; exact hs)
    (fun _ _ hx ⟨hp, hb⟩ hs => hx.shiftOk hp hb hs) ⟨hp, hb⟩ hs h

end Sys2Proof.Machine
end

section
/-! SUPPORT. The record index (spec 10_state.md R23, 41_synchronizer.md R142). -/

namespace Sys2Proof.Machine

variable {s t x : State}

theorem SampleEffect.pos {d : Half} (h : SampleEffect d s x) : x.call.pos = bump32 s.call.pos := by
  cases h <;> simp

@[simp] theorem sampleRunning_call_pos (d : Half) (s : State) :
    (sampleRunning d s).call.pos = bump32 s.call.pos := (sampleRunning_effect d s).pos

@[simp] theorem endSearch_call_pos (s : State) : (endSearch s).call.pos = s.call.pos := by
  unfold endSearch; split <;> simp

@[simp] theorem endPayload_call_pos (s : State) : (endPayload s).call.pos = s.call.pos := by
  unfold endPayload; split <;> simp

theorem Fsm.not_running_of_terminal {f : Fsm} (h : f.terminal = true) : f.running = false := by
  revert h
  cases f <;> decide

/-- What R142 says of a command that brings a record. -/
abbrev RecordCounted (s t : State) : Prop :=
  (s.call.fsm.running = true → t.call.pos.toNat = min (s.call.pos.toNat + 1) 0xFFFFFFFF) ∧
  (s.call.fsm.running = false → t.call.pos = s.call.pos)

theorem recordCounted_of_same (hn : s.call.fsm.running = false) (ht : t.call.pos = s.call.pos) :
    RecordCounted s t :=
  ⟨fun hr => absurd hr (by simp [hn]), fun _ => ht⟩

theorem recordCounted_of_bump (hr : s.call.fsm.running = true) (ht : t.call.pos = bump32 s.call.pos) :
    RecordCounted s t :=
  ⟨fun _ => by rw [ht, bump32_toNat], fun hn => absurd hr (by simp [hn])⟩

theorem execSample_recordCounted {d : Half} (h : execSample d s = .next t) : RecordCounted s t := by
  rcases execSample_cases h with ⟨hf, rfl⟩ | ⟨hf, rfl⟩ | ⟨hr, rfl⟩
  · exact recordCounted_of_same (by rw [hf]; rfl) rfl
  · exact recordCounted_of_same (Fsm.not_running_of_terminal hf) rfl
  · exact recordCounted_of_bump hr (by simp)

theorem execSkip_recordCounted (h : execSkip s = .next t) : RecordCounted s t := by
  rcases execSkip_cases h with ⟨hf, rfl⟩ | ⟨hf, rfl⟩ | ⟨hr, rfl⟩
  · exact recordCounted_of_same (by rw [hf]; rfl) rfl
  · exact recordCounted_of_same (Fsm.not_running_of_terminal hf) rfl
  · exact recordCounted_of_bump hr (by simp)

theorem execStart_pos (h : execStart s = .next t) :
    (s.call.fsm.running = false → t.call.pos = 0) ∧ (s.call.fsm.running = true → t.call.pos = s.call.pos) := by
  rcases execStart_cases h with ⟨hr, rfl⟩ | ⟨hr, rfl⟩ <;> simp [hr, Call.reset]

/-- The commands that neither bring a record nor clear the call leave `POS` alone. -/
theorem exec_pos_of_other {i : Instr} (h : exec i s = .next t) (hsample : ∀ d, i ≠ .sample d) (hskip : i ≠ .skip)
    (hsrst : i ≠ .srst) (hstart : i ≠ .start) : t.call.pos = s.call.pos := by
  have answered : (∃ v e, t = (s.withErr e).withResponses (s.responses ++ [v])) → t.call.pos = s.call.pos := by
    rintro ⟨v, e, rfl⟩
    rfl
  cases i with
  | nop => cases h; rfl
  | srst => exact absurd rfl hsrst
  | start => exact absurd rfl hstart
  | sample d => exact absurd rfl (hsample d)
  | skip => exact absurd rfl hskip
  | wrreg reg d =>
    rcases execWrreg_cases h with ⟨_, rfl⟩ | ⟨_, ⟨_, rfl⟩ | ⟨_, _, _, rfl⟩ | ⟨_, _, _, rfl⟩⟩ <;> simp
  | endCall => rcases execEnd_cases h with ⟨_, rfl⟩ | ⟨_, rfl⟩ | ⟨_, rfl⟩ | ⟨_, rfl⟩ <;> simp
  | cals d =>
    rcases execCals_cases h with ⟨_, rfl⟩ | ⟨_, _, ⟨_, rfl⟩ | ⟨_, _, rfl⟩ | ⟨_, _, rfl⟩⟩ <;> simp
  | clrh => rcases execClrh_cases h with ⟨_, rfl⟩ | ⟨_, rfl⟩ <;> simp
  | rdreg reg => exact answered (execRdreg_cases h)
  | rdmsg i => exact answered (execRdmsg_cases h)
  | rdraw i => exact answered (execRdraw_cases h)

/-- Settles O44: `SAMPLE` and `SKIP` advance `POS` in every branch that accepts the record. -/
theorem posCountsRecords : Obligations.PosCountsRecords := by
  intro i s t h
  refine ⟨?_, ?_, ?_, fun hsample hskip hsrst hstart => exec_pos_of_other h hsample hskip hsrst hstart⟩
  · rintro (⟨d, rfl⟩ | rfl)
    · exact execSample_recordCounted h
    · exact execSkip_recordCounted h
  · rintro (rfl | ⟨rfl, hn⟩)
    · cases h
      rfl
    · exact (execStart_pos h).1 hn
  · rintro rfl hr
    exact (execStart_pos h).2 hr

end Sys2Proof.Machine
end

section
/-! SUPPORT. The classifier's persistent state (spec 10_state.md R43, R44, 40_classifier.md R116, R118, R119). -/

namespace Sys2Proof.Machine

variable {s t x : State}

/-- `Classify` takes the sample into the history under `ADAPT` alone (R112, R116, R120). -/
theorem classifyUpdate_cls (v : Half) (s : State) : (classifyUpdate v s).cls =
    if s.cfg.policy = .adapt then { s.cls with hist := pushSample (zext16 s.cfg.win) s.cls.hist v }
    else s.cls := by
  unfold classifyUpdate
  cases hp : s.cfg.policy with
  | cal => dsimp only; split <;> simp
  | _ => simp

/-- A `SAMPLE` under ADAPT that the classifier sees joins the history; no other touches the classifier's state. -/
theorem SampleEffect.cls {d : Half} (h : SampleEffect d s x) : x.cls =
    if s.cfg.sync ≠ .tone ∧ glitch s.cfg d = false ∧ s.cfg.policy = .adapt then
      { s.cls with hist := pushSample (zext16 s.cfg.win) s.cls.hist d }
    else s.cls := by
  cases h <;> simp_all [classifyUpdate_cls]

theorem length_pushSample_le {win : Nat} {hist : List Half} (v : Half) (h : hist.length ≤ win) :
    (pushSample win hist v).length ≤ win := by
  unfold pushSample
  split
  · simpa using h
  · omega

theorem pushSample_of_room {win : Nat} {hist : List Half} (v : Half) (h : hist.length < win) :
    pushSample win hist v = hist ++ [v] := by
  refine if_neg ?_
  simp only [List.length_append, List.length_singleton]
  omega

theorem pushSample_of_full {win : Nat} {hist : List Half} (v : Half) (h : win ≤ hist.length) :
    pushSample win hist v = (hist ++ [v]).tail := by
  refine if_pos ?_
  simp only [List.length_append, List.length_singleton]
  omega

/-! The doubled median fits the 17 bits of `CAL_BASE2` (10_state.md R44). -/

theorem getD_sorted_samples_bounds (hist : List Half) (i : Nat) :
    -32768 ≤ ((samples hist).insertionSort (· ≤ ·)).getD i 0 ∧
      ((samples hist).insertionSort (· ≤ ·)).getD i 0 ≤ 32767 := by
  rcases Nat.lt_or_ge i ((samples hist).insertionSort (· ≤ ·)).length with hi | hi
  · rw [List.getD_eq_getElem _ _ hi]
    have hmem := (List.mem_insertionSort (· ≤ ·)).1 (List.getElem_mem hi)
    obtain ⟨v, _, hv⟩ := List.mem_map.1 hmem
    rw [← hv]
    have hlo := v.le_toInt
    have hhi := v.toInt_lt
    simp only [sext16]
    omega
  · rw [List.getD_eq_default _ _ hi]
    decide

theorem median2_bounds (hist : List Half) : -65536 ≤ median2 hist ∧ median2 hist < 65536 := by
  have hb := getD_sorted_samples_bounds hist
  unfold median2
  dsimp only
  split
  · have := hb ((hist.length - 1) / 2)
    omega
  · have h1 := hb (hist.length / 2 - 1)
    have h2 := hb (hist.length / 2)
    omega

theorem toInt_ofInt_median2 (hist : List Half) : (BitVec.ofInt 17 (median2 hist)).toInt = median2 hist :=
  BitVec.toInt_ofInt_eq_self (by decide) (median2_bounds hist).1 (median2_bounds hist).2

/-- A calibration sample joins the history; the `CAL_LEN`-th fixes the baseline (R118, R119). -/
theorem calibrate_cls (v : Half) (s : State) : (calibrate v s).cls =
    if s.cls.hist.length + 1 = zext16 s.cfg.calLen then
      { hist := s.cls.hist ++ [v], calValid := true, calBase2 := BitVec.ofInt 17 (median2 (s.cls.hist ++ [v])) }
    else { s.cls with hist := s.cls.hist ++ [v] } := by
  unfold calibrate
  simp only [List.length_append, List.length_singleton]
  split <;> rfl

/-! The bounds of the history. -/

theorem historyOk_congr (hc : t.cfg = s.cfg) (hk : t.cls = s.cls) (h : HistoryOk s) : HistoryOk t := by
  rw [HistoryOk, hc, hk]
  exact h

/-- No history and no calibration meet every policy, since a legal `CAL_LEN` is at least 1 (R234). -/
theorem historyOk_of_reset (hc : ConfigOk s) (hk : s.cls = Classifier.reset) : HistoryOk s := by
  obtain ⟨_, _, _, ⟨hcal, _⟩, _⟩ := hc
  rw [HistoryOk, hk]
  refine ⟨fun _ => rfl, fun _ _ => rfl, fun _ => ⟨Nat.zero_le _, rfl, rfl⟩, fun _ => ⟨?_, fun _ => ⟨hcal, rfl⟩⟩⟩
  intro h
  cases h

/-- The registers that `HistoryOk` reads are those whose write empties the history (R233). -/
theorem cfgWrite_of_keepsHistory {c : Cfg} {r : CfgReg} (d : Half) (h : clearsHistory r = false) :
    (c.write r d).mode = c.mode ∧ (c.write r d).win = c.win ∧ (c.write r d).calLen = c.calLen := by
  cases r with
  | mode => cases h
  | win => cases h
  | calLen => cases h
  | _ => exact ⟨rfl, rfl, rfl⟩

theorem writeCfg_historyOk {r : CfgReg} {d : Half} (hc : ConfigOk (writeCfg r d s)) (hs : HistoryOk s) :
    HistoryOk (writeCfg r d s) := by
  cases hr : clearsHistory r with
  | true => exact historyOk_of_reset hc (by rw [writeCfg_cls, hr, if_pos rfl])
  | false =>
    obtain ⟨hmode, hwin, hcal⟩ := cfgWrite_of_keepsHistory (c := s.cfg) d hr
    have hk : (writeCfg r d s).cls = s.cls := by simp [writeCfg_cls, hr]
    rw [HistoryOk, hk, writeCfg_cfg, Cfg.policy, Cfg.sync, hmode, hwin, hcal]
    exact hs

theorem SampleEffect.historyOk {d : Half} (h : SampleEffect d s x) (hs : HistoryOk s) : HistoryOk x := by
  by_cases hin : s.cfg.sync ≠ .tone ∧ glitch s.cfg d = false ∧ s.cfg.policy = .adapt
  · have hk := h.cls
    rw [if_pos hin] at hk
    obtain ⟨hm, _, hp⟩ := hin
    obtain ⟨_, _, hadapt, _⟩ := hs
    obtain ⟨hlen, hvalid, hbase⟩ := hadapt hp
    rw [HistoryOk, h.cfg, hk]
    refine ⟨?_, fun hm' => absurd hm' hm, fun _ => ⟨length_pushSample_le d hlen, hvalid, hbase⟩, ?_⟩ <;>
      simp [hp]
  · exact historyOk_congr h.cfg (by rw [h.cls, if_neg hin]) hs

theorem calibrate_historyOk (d : Half) (hp : s.cfg.policy = .cal) (hv : s.cls.calValid = false)
    (hs : HistoryOk s) : HistoryOk (calibrate d s) := by
  obtain ⟨_, _, _, hcal⟩ := hs
  obtain ⟨hlen, hbase⟩ := (hcal hp).2 hv
  rw [HistoryOk, calibrate_cfg, calibrate_cls]
  refine ⟨by simp [hp], fun _ hne => absurd hp hne, by simp [hp], fun _ => ?_⟩
  split
  next hfull => exact ⟨fun _ => ⟨by simpa using hfull, toInt_ofInt_median2 _⟩, by simp⟩
  next hpart =>
    refine ⟨by simp [hv], fun _ => ⟨?_, hbase⟩⟩
    rw [List.length_append, List.length_singleton]
    omega

theorem Change.historyOk (h : Change s x) (hc : ConfigOk s) (hs : HistoryOk s) : HistoryOk x := by
  have hx : ConfigOk x := h.configOk hc
  cases h with
  | reset => exact historyOk_of_reset hx rfl
  | clear _ => exact historyOk_of_reset hx rfl
  | write r d _ _ => exact writeCfg_historyOk hx hs
  | sample d _ => exact (sampleRunning_effect d s).historyOk hs
  | calibrate d _ hp hv => exact calibrate_historyOk d hp hv hs
  | _ => exact historyOk_congr (by simp) (by simp) hs

/-- Settles O55: each change of the history or of a register that bounds it keeps the bound. -/
theorem stepKeepsHistoryBounds : Obligations.StepKeepsHistoryBounds := fun _ _ hc hs h =>
  step_preserves (Q := ConfigOk) (fun _ _ hc hq => by rw [hc.eq_with]; exact hq)
    (fun _ _ hc hs => by rw [hc.eq_with]; exact hs) (fun _ _ hx hq hs => hx.historyOk hq hs) hc hs h

/-! What each command does to the classifier's state, in the terms of `HistoryLifetime`. -/

/-- The history is emptied by this command (43_orchestrator.md R210, R211, 44_register_access.md R233). -/
abbrev HistoryEmptied (i : Instr) (s t : State) : Prop :=
  t.cls = Classifier.reset ∧
    (i = .srst ∨ (i = .clrh ∧ s.call.fsm.running = false) ∨
      ∃ r d, i = .wrreg (.cfg r) d ∧ (r = .mode ∨ r = .win ∨ r = .calLen) ∧ s.call.fsm.running = false ∧
        legalValue s.params r d = true)

theorem clearsHistory_iff {r : CfgReg} : clearsHistory r = true ↔ r = .mode ∨ r = .win ∨ r = .calLen := by
  cases r <;> decide

theorem execWrreg_cls {reg : Reg} {d : Half} (h : execWrreg reg d s = .next t) :
    t.cls = s.cls ∨ HistoryEmptied (.wrreg reg d) s t := by
  rcases execWrreg_cases h with ⟨_, rfl⟩ | ⟨hn, ⟨_, rfl⟩ | ⟨_, _, _, rfl⟩ | ⟨r, rfl, hl, rfl⟩⟩
  · exact .inl rfl
  · exact .inl rfl
  · exact .inl rfl
  · cases hr : clearsHistory r with
    | false => exact .inl (by simp [writeCfg_cls, hr])
    | true =>
      exact .inr ⟨by simp [writeCfg_cls, hr], .inr (.inr ⟨r, d, rfl, clearsHistory_iff.1 hr, hn, hl⟩)⟩

theorem execClrh_cls (h : execClrh s = .next t) : t.cls = s.cls ∨ HistoryEmptied .clrh s t := by
  rcases execClrh_cases h with ⟨_, rfl⟩ | ⟨hn, rfl⟩
  · exact .inl rfl
  · exact .inr ⟨rfl, .inr (.inl ⟨rfl, hn⟩)⟩

/-- The glitch test of R111 from the side that passes. -/
theorem glitch_eq_false_iff {c : Cfg} {v : Half} : glitch c v = false ↔ sext16 c.glitch ≤ sext16 v := by
  simp [glitch]

/-- A `CALS` that is taken in grows the history and fixes the baseline at the `CAL_LEN`-th sample (R118, R119). -/
theorem execCals_cls {d : Half} (h : execCals d s = .next t) :
    t.cls = s.cls ∨
      (s.cfg.policy = .cal ∧ s.call.fsm.running = false ∧ s.cfg.glitch.toInt ≤ d.toInt ∧
        s.cls.calValid = false ∧ t.cls.hist = s.cls.hist ++ [d] ∧
        (t.cls.calValid = true ↔ s.cls.hist.length + 1 = s.cfg.calLen.toNat) ∧
        (t.cls.calValid = true → t.cls.calBase2.toInt = median2 t.cls.hist) ∧
        (t.cls.calValid = false → t.cls.calBase2 = s.cls.calBase2)) := by
  rcases execCals_cases h with ⟨_, rfl⟩ | ⟨hn, hp, ⟨_, rfl⟩ | ⟨_, _, rfl⟩ | ⟨hg, hv, rfl⟩⟩
  · exact .inl rfl
  · exact .inl rfl
  · exact .inl rfl
  · refine .inr ⟨hp, hn, glitch_eq_false_iff.1 hg, hv, ?_⟩
    rw [calibrate_cls]
    split
    next hfull => exact ⟨rfl, iff_of_true rfl hfull, fun _ => toInt_ofInt_median2 _, by simp⟩
    next hpart => exact ⟨rfl, iff_of_false (by simp [hv]) hpart, by simp [hv], fun _ => rfl⟩

/-- A `SAMPLE` is taken in under ADAPT alone, within the window (R116). -/
theorem execSample_cls {d : Half} (h : execSample d s = .next t) :
    t.cls = s.cls ∨
      (s.cfg.policy = .adapt ∧ Classified d s ∧
        (s.cls.hist.length < s.cfg.win.toNat → t.cls.hist = s.cls.hist ++ [d]) ∧
        (s.cfg.win.toNat ≤ s.cls.hist.length → t.cls.hist = (s.cls.hist ++ [d]).tail) ∧
        t.cls.calValid = s.cls.calValid ∧ t.cls.calBase2 = s.cls.calBase2) := by
  rcases execSample_cases h with ⟨_, rfl⟩ | ⟨_, rfl⟩ | ⟨hr, rfl⟩
  · exact .inl rfl
  · exact .inl rfl
  · have hk := (sampleRunning_effect d s).cls
    by_cases hin : s.cfg.sync ≠ .tone ∧ glitch s.cfg d = false ∧ s.cfg.policy = .adapt
    · rw [if_pos hin] at hk
      obtain ⟨hm, hg, hp⟩ := hin
      rw [hk]
      exact .inr ⟨hp, ⟨hr, hm, glitch_eq_false_iff.1 hg⟩, pushSample_of_room d, pushSample_of_full d, rfl, rfl⟩
    · rw [if_neg hin] at hk
      exact .inl hk

/-- Settles O51: command by command, with what `WRREG`, `CLRH`, `CALS` and `SAMPLE` do said above. -/
theorem historyLifetime : Obligations.HistoryLifetime := by
  intro i s t h
  have answered : (∃ v e, t = (s.withErr e).withResponses (s.responses ++ [v])) → t.cls = s.cls := by
    rintro ⟨v, e, rfl⟩
    rfl
  cases i with
  | nop => cases h; exact .inl rfl
  | srst => cases h; exact .inr (.inl ⟨rfl, .inl rfl⟩)
  | wrreg reg d => exact (execWrreg_cls h).imp_right .inl
  | clrh => exact (execClrh_cls h).imp_right .inl
  | cals d => exact (execCals_cls h).imp_right fun hc => .inr (.inl ⟨d, rfl, hc⟩)
  | sample d => exact (execSample_cls h).imp_right fun hc => .inr (.inr ⟨d, rfl, hc⟩)
  | start => rcases execStart_cases h with ⟨_, rfl⟩ | ⟨_, rfl⟩ <;> exact .inl (by simp)
  | skip => rcases execSkip_cases h with ⟨_, rfl⟩ | ⟨_, rfl⟩ | ⟨_, rfl⟩ <;> exact .inl (by simp)
  | endCall => rcases execEnd_cases h with ⟨_, rfl⟩ | ⟨_, rfl⟩ | ⟨_, rfl⟩ | ⟨_, rfl⟩ <;> exact .inl (by simp)
  | rdreg reg => exact .inl (answered (execRdreg_cases h))
  | rdmsg i => exact .inl (answered (execRdmsg_cases h))
  | rdraw i => exact .inl (answered (execRdraw_cases h))

end Sys2Proof.Machine
end

section
/-! SUPPORT. The presence accumulator and the record index (spec 10_state.md R24, R40, 41_synchronizer.md R150 to R154). -/

namespace Sys2Proof.Machine

variable {s t x : State}

/-- The accumulator of positional mode is within the bounds of its count, and the count within the records of the window
seen so far: the bounds that keep `WSUM` and `WCNT` from wrapping (10_state.md R24). -/
abbrev AccumulatorOk (s : State) : Prop :=
  s.call.wcnt.toNat ≤ s.call.pos.toNat - zext16 s.cfg.preStart ∧
  s.call.wcnt.toNat ≤ zext16 s.cfg.preLen ∧
  -32768 * (s.call.wcnt.toNat : Int) ≤ s.call.wsum.toInt ∧
  s.call.wsum.toInt ≤ 32767 * (s.call.wcnt.toNat : Int)

/-- What holds in positional mode between the advance of `POS` and `PosCheck` (R140, R171): the record index may have
reached the end of the window that the state stands for. -/
abbrev WindowDue (s : State) : Prop :=
  s.call.fsm.running = true →
    AccumulatorOk s ∧
    (s.call.fsm = .search → s.call.pos.toNat ≤ s.cfg.payloadStart) ∧
    (s.call.fsm = .payload → s.cfg.payloadStart ≤ s.call.pos.toNat ∧
      s.call.pos.toNat ≤ s.cfg.payloadStart + s.cfg.payloadLen)

theorem windowOk_of_not_running (h : s.call.fsm.running = false) : WindowOk s := by
  intro hr
  simp [h] at hr

theorem windowOk_of_not_pos (hm : s.cfg.sync ≠ .pos) (hsum : s.call.wsum = 0) (hcnt : s.call.wcnt = 0) :
    WindowOk s := fun _ => ⟨fun h => absurd h hm, fun _ => ⟨hsum, hcnt⟩⟩

/-- `WindowDue` looks at the configuration, `FSM`, `POS` and the accumulator alone. -/
theorem windowDue_congr (hc : t.cfg = s.cfg) (hf : t.call.fsm = s.call.fsm) (hp : t.call.pos = s.call.pos)
    (hsum : t.call.wsum = s.call.wsum) (hcnt : t.call.wcnt = s.call.wcnt) (h : WindowDue s) : WindowDue t := by
  rw [WindowDue, AccumulatorOk, hc, hf, hp, hsum, hcnt]
  exact h

/-! `PosCheck` (R171) closes the window whose end the record index has reached. -/

theorem enterPayload_fsm (s : State) : (enterPayload s).call.fsm = .payload ∨ (enterPayload s).call.fsm = .done := by
  rw [enterPayload_call]
  split
  · exact .inr rfl
  · exact .inl rfl

theorem decidePresence_fsm_ne_search (s : State) : (decidePresence s).call.fsm ≠ .search := by
  unfold decidePresence
  split
  · rcases enterPayload_fsm s with h | h <;> simp [h]
  · simp

theorem windowCheck_fsm_search (h : (windowCheck s).call.fsm = .search) :
    s.call.fsm = .search ∧ s.call.pos.toNat ≠ s.cfg.payloadStart := by
  unfold windowCheck at h
  split at h
  next => exact absurd h (decidePresence_fsm_ne_search s)
  next hn => exact ⟨h, fun hp => hn ⟨h, hp⟩⟩

theorem windowCheck_fsm_payload (h : (windowCheck s).call.fsm = .payload) :
    s.call.fsm = .payload ∨ (s.call.fsm = .search ∧ s.call.pos.toNat = s.cfg.payloadStart) := by
  unfold windowCheck at h
  split at h
  next hs => exact .inr hs
  next => exact .inl h

theorem payloadCheck_fsm_running (h : (payloadCheck s).call.fsm.running = true) :
    (payloadCheck s).call.fsm = s.call.fsm ∧
      (s.call.fsm = .payload → s.call.pos.toNat ≠ s.cfg.payloadStart + s.cfg.payloadLen) := by
  unfold payloadCheck at h ⊢
  split at h
  next => cases h
  next hn => exact ⟨by rw [if_neg hn], fun hf hp => hn ⟨hf, hp⟩⟩

/-- After `PosCheck` the record index lies within the window of the state again. -/
theorem posCheck_windowOk (hm : s.cfg.sync = .pos) (h : WindowDue s) : WindowOk (posCheck s) := by
  intro hr
  refine ⟨fun _ => ?_, fun hne => absurd hm (by simpa using hne)⟩
  simp only [posCheck_cfg, posCheck_call_pos, posCheck_call_wsum, posCheck_call_wcnt]
  have he : posCheck s = payloadCheck (windowCheck s) := if_pos hm
  rw [he] at hr ⊢
  obtain ⟨hf, hend⟩ := payloadCheck_fsm_running hr
  rw [hf] at hr ⊢
  simp only [windowCheck_call_pos, windowCheck_cfg] at hend
  cases hw : (windowCheck s).call.fsm with
  | search =>
    obtain ⟨hs, hne⟩ := windowCheck_fsm_search hw
    obtain ⟨⟨h1, h2, h3, h4⟩, hlt, _⟩ := h (by rw [hs]; rfl)
    exact ⟨h1, h2, h3, h4, fun _ => lt_of_le_of_ne (hlt hs) hne, nofun⟩
  | payload =>
    have hne := hend hw
    rcases windowCheck_fsm_payload hw with hs | ⟨hs, hp⟩
    · obtain ⟨⟨h1, h2, h3, h4⟩, _, hle⟩ := h (by rw [hs]; rfl)
      exact ⟨h1, h2, h3, h4, nofun, fun _ => ⟨(hle hs).1, lt_of_le_of_ne (hle hs).2 hne⟩⟩
    · obtain ⟨⟨h1, h2, h3, h4⟩, _, _⟩ := h (by rw [hs]; rfl)
      exact ⟨h1, h2, h3, h4, nofun, fun _ => by omega⟩
  | _ =>
    rw [hw] at hr
    cases hr

/-! A record in positional mode. -/

/-- The windows of R150 and R154 end below 3·65535, far from where `POS` saturates (R23). -/
theorem payloadEnd_le (c : Cfg) : c.payloadStart + c.payloadLen ≤ 196605 := by
  have h1 := c.preStart.isLt
  have h2 := c.preLen.isLt
  have h3 := c.payLen.isLt
  simp only [Cfg.payloadStart, Cfg.payloadLen, zext16]
  omega

theorem bump32_pos_of_lt_payloadEnd (h : s.call.pos.toNat < s.cfg.payloadStart + s.cfg.payloadLen) :
    (bump32 s.call.pos).toNat = s.call.pos.toNat + 1 := by
  have hend := payloadEnd_le s.cfg
  exact bump32_of_lt (by omega)

theorem advancePos_windowDue (hm : s.cfg.sync = .pos) (h : WindowOk s) : WindowDue (advancePos s) := by
  intro hr
  obtain ⟨hw, _⟩ := h hr
  obtain ⟨h1, h2, h3, h4, hsearch, hpayload⟩ := hw hm
  simp only [AccumulatorOk, advancePos_cfg, advancePos_call]
  cases hf : s.call.fsm with
  | search =>
    have hlt := hsearch hf
    rw [bump32_pos_of_lt_payloadEnd (Nat.lt_add_right _ hlt)]
    exact ⟨⟨by omega, h2, h3, h4⟩, fun _ => hlt, nofun⟩
  | payload =>
    obtain ⟨hle, hlt⟩ := hpayload hf
    rw [bump32_pos_of_lt_payloadEnd hlt]
    exact ⟨⟨by omega, h2, h3, h4⟩, nofun, fun _ => ⟨Nat.le_succ_of_le hle, hlt⟩⟩
  | _ =>
    rw [advancePos_call, hf] at hr
    cases hr

/-- A sample within the window finds room in the count, so neither `WCNT` nor `WSUM` wraps (10_state.md R24). -/
theorem accumulate_windowDue (v : Half) (hm : s.cfg.sync = .pos) (hf : s.call.fsm = .search)
    (hin : s.cfg.inWindow s.call.pos.toNat = true) (h : WindowOk s) :
    WindowDue (accumulate v (advancePos s)) := by
  intro hr
  obtain ⟨hw, _⟩ := h (by rw [hf]; rfl)
  obtain ⟨h1, h2, h3, h4, hsearch, _⟩ := hw hm
  obtain ⟨_, hle, _⟩ := advancePos_windowDue hm h (by rw [advancePos_call, hf]; rfl)
  simp only [Cfg.inWindow, Bool.and_eq_true, decide_eq_true_eq] at hin
  obtain ⟨hlo, hhi⟩ := hin
  have hpos := bump32_pos_of_lt_payloadEnd (Nat.lt_add_right s.cfg.payloadLen hhi)
  have hlen : zext16 s.cfg.preLen < 65536 := s.cfg.preLen.isLt
  have hroom : s.call.wcnt.toNat + 1 ≤ zext16 s.cfg.preLen := by
    rw [Cfg.payloadStart] at hhi
    omega
  have hcnt : (BitVec.ofNat 16 (s.call.wcnt.toNat + 1)).toNat = s.call.wcnt.toNat + 1 := by
    rw [BitVec.toNat_ofNat]
    omega
  have hvlo : -32768 ≤ sext16 v := v.le_toInt
  have hvhi : sext16 v < 32768 := v.toInt_lt
  have hsum : (BitVec.ofInt 32 (s.call.wsum.toInt + sext16 v)).toInt = s.call.wsum.toInt + sext16 v :=
    BitVec.toInt_ofInt_eq_self (by decide) (by omega) (by omega)
  simp only [AccumulatorOk, accumulate_cfg, accumulate_call, advancePos_cfg, advancePos_call, hcnt, hsum]
  refine ⟨⟨by omega, hroom, by omega, by omega⟩, fun _ => hle (by rw [advancePos_call, hf]), fun hc => ?_⟩
  rw [hf] at hc
  cases hc

theorem windowSample_windowDue (v : Half) (hm : s.cfg.sync = .pos) (h : WindowOk s) :
    WindowDue (windowSample s.call.pos.toNat v (advancePos s)) := by
  unfold windowSample
  split
  next hin =>
    obtain ⟨_, hf, hin⟩ := hin
    exact accumulate_windowDue v hm hf hin h
  next => exact advancePos_windowDue hm h

/-- Outside pattern mode a bit in `PAYLOAD` leaves the call in `PAYLOAD` (42_reassembler.md R181). -/
theorem emitBit_fsm_of_pos (b : Bool) (hm : s.cfg.sync = .pos) (hf : s.call.fsm = .payload) :
    (emitBit b s).call.fsm = s.call.fsm := by
  simp [emitBit_payload_fsm s b hf, hm, hf]

theorem SampleEffect.windowOk_of_pos {d : Half} (hx : SampleEffect d s x) (hm : s.cfg.sync = .pos)
    (h : WindowOk s) : WindowOk x := by
  have hdue := windowSample_windowDue d hm h
  cases hx with
  | handshake ht _ => simp [hm] at ht
  | otherTone ht _ => simp [hm] at ht
  | drop ht _ => simp [hm] at ht
  | symbol k ht _ => simp [hm] at ht
  | glitched _ _ => exact posCheck_windowOk (by simpa using hm) (advancePos_windowDue hm h)
  | noBit _ _ =>
    exact posCheck_windowOk (by simpa using hm)
      (windowDue_congr (by simp) (by simp) (by simp) (by simp) (by simp) hdue)
  | bit b _ _ hb =>
    have hf : s.call.fsm = .payload := hb.resolve_left (by simp [hm])
    have hfsm := emitBit_fsm_of_pos
      (s := classifyUpdate d (windowSample s.call.pos.toNat d (advancePos s))) b (by simpa using hm) (by simpa using hf)
    exact posCheck_windowOk (by simpa using hm)
      (windowDue_congr (by simp) (by simpa using hfsm) (by simp) (by simp) (by simp) hdue)

/-- In the other modes nothing accumulates (R151). -/
theorem SampleEffect.accumulator_of_not_pos {d : Half} (hx : SampleEffect d s x) (hm : s.cfg.sync ≠ .pos) :
    x.call.wsum = s.call.wsum ∧ x.call.wcnt = s.call.wcnt := by
  cases hx <;> simp [windowSample, hm]

theorem SampleEffect.windowOk {d : Half} (hx : SampleEffect d s x) (hr : s.call.fsm.running = true)
    (h : WindowOk s) : WindowOk x := by
  by_cases hm : s.cfg.sync = .pos
  · exact hx.windowOk_of_pos hm h
  · obtain ⟨hsum, hcnt⟩ := (h hr).2 hm
    obtain ⟨hsum', hcnt'⟩ := hx.accumulator_of_not_pos hm
    exact windowOk_of_not_pos (by rw [hx.cfg]; exact hm) (hsum'.trans hsum) (hcnt'.trans hcnt)

theorem skip_windowOk (hr : s.call.fsm.running = true) (h : WindowOk s) :
    WindowOk (posCheck (countSkip (advancePos s))) := by
  by_cases hm : s.cfg.sync = .pos
  · exact posCheck_windowOk (by simpa using hm) (advancePos_windowDue hm h)
  · obtain ⟨hsum, hcnt⟩ := (h hr).2 hm
    exact windowOk_of_not_pos (by simpa using hm) (by simpa using hsum) (by simpa using hcnt)

/-- A call just started has accumulated nothing, and its record index is at most the end of the preamble window. -/
theorem openCall_windowDue (s : State) : WindowDue (openCall s) := by
  intro _
  simp [AccumulatorOk, Call.reset]

theorem decideAtStart_windowOk (s : State) : WindowOk (decideAtStart (openCall s)) := by
  by_cases hm : s.cfg.sync = .pos
  · have he : decideAtStart (openCall s) = posCheck (openCall s) := if_pos hm
    rw [he]
    exact posCheck_windowOk hm (openCall_windowDue s)
  · exact windowOk_of_not_pos (by simpa using hm) (by simp [Call.reset]) (by simp [Call.reset])

theorem Change.windowOk (h : Change s x) (hs : WindowOk s) : WindowOk x := by
  cases h with
  | same => exact hs
  | reset => exact windowOk_of_not_running rfl
  | start _ => exact decideAtStart_windowOk s
  | sample d hr => exact (sampleRunning_effect d s).windowOk hr hs
  | skip hr => exact skip_windowOk hr hs
  | endSearch _ => exact windowOk_of_not_running (endSearch_not_running s)
  | endPayload _ => exact windowOk_of_not_running (endPayload_not_running s)
  | write _ _ hn _ => exact windowOk_of_not_running (by simpa using hn)
  | calibrate _ hn _ _ => exact windowOk_of_not_running (by simpa using hn)
  | calsGlitch hn => exact windowOk_of_not_running (by simpa using hn)
  | clear hn => exact windowOk_of_not_running (by simpa using hn)

/-- Settles O58: `PosCheck` after each record closes a window at its end, so the sum never leaves the bounds of its
count. -/
theorem stepKeepsWindow : Obligations.StepKeepsWindow := fun _ _ hs h =>
  step_preserves (Q := fun _ => True) (fun _ _ _ h => h) (fun _ _ hc hs => by rw [hc.eq_with]; exact hs)
    (fun _ _ hx _ hs => hx.windowOk hs) trivial hs h

end Sys2Proof.Machine
end

section
/-! SUPPORT. The reset state and the output levels (spec 10_state.md R22, R35, R48, R49). -/

namespace Sys2Proof.Machine

variable {s t : State}

/-- What R48 says of a state, its sizes, port and responses apart. -/
abbrev AtReset (t : State) : Prop :=
  t.cfg = Cfg.reset ∧ t.call = Call.reset ∧ t.cls = Classifier.reset ∧ t.err = 0 ∧ t.mem = Memory.reset

theorem resetState_atReset (s : State) : AtReset (resetState s) := ⟨rfl, rfl, rfl, rfl, rfl⟩

theorem resetWith_atReset (p : Params) : AtReset (State.resetWith p) := ⟨rfl, rfl, rfl, rfl, rfl⟩

theorem execSrst_atReset (h : exec .srst s = .next t) : AtReset t := by
  cases h
  exact resetState_atReset s

theorem step_hardwareReset_atReset {rest : List PortEvent} (hp : s.port = .hardwareReset :: rest)
    (h : step s = .next t) : AtReset t := by
  rw [step, hp] at h
  cases h
  exact resetState_atReset _

/-- The outputs are 0 after a reset (R49). -/
theorem AtReset.levels (h : AtReset t) : t.doneLevel = false ∧ t.errLevel = false := by
  obtain ⟨_, hl, _, he, _⟩ := h
  rw [State.doneLevel, State.errLevel, hl, he]
  decide

/-- Settles O9: both resets and the first state of every size have the values of R48. -/
theorem resetValues : Obligations.ResetValues := by
  intro t h
  have hr : AtReset t := by
    rcases h with ⟨s, hs⟩ | ⟨s, rest, hp, hs⟩ | ⟨p, rfl⟩
    · exact execSrst_atReset hs
    · exact step_hardwareReset_atReset hp hs
    · exact resetWith_atReset p
  have hlevels := hr.levels
  obtain ⟨hc, hl, hk, he, hm⟩ := hr
  exact ⟨hc, hl, hk, he, hm, hlevels⟩

/-- Bit `i` of STATUS, by the field that it lies in (R35). -/
theorem getLsbD_statusWord (c : Call) (calValid : Bool) (i : Nat) : (statusWord c calValid).getLsbD i =
    if i < 3 then c.fsm.code.getLsbD i
    else if i < 9 then [false, c.nopre, c.short, c.rawovf, c.msgovf, calValid].getD (i - 3) false
    else c.left.getLsbD (i - 9) := by
  simp only [statusWord, BitVec.getLsbD_append, BitVec.getLsbD_ofBool, BitVec.getLsbD_zero]
  rcases Nat.lt_or_ge i 12 with hi | hi
  · interval_cases i <;> simp
  · have hleft : c.left.getLsbD (i - 9) = false := BitVec.getLsbD_of_ge _ _ (by omega)
    have h3 : ¬ i < 3 := by omega
    have h9 : ¬ i < 9 := by omega
    simp [h3, h9, hleft]

/-- Settles O17: each field is the run of bits that `getLsbD_statusWord` gives it. -/
theorem statusWordFields : Obligations.StatusWordFields := by
  intro c calValid
  have bit := getLsbD_statusWord c calValid
  refine ⟨?_, bit 3, bit 4, bit 5, bit 6, bit 7, bit 8, ?_, ?_⟩ <;>
    ext i hi <;> rw [BitVec.getElem_extractLsb', bit]
  · simp [hi]
  · have h3 : ¬ 9 + i < 3 := by omega
    simp [h3, BitVec.getLsbD_eq_getElem hi]
  · have h3 : ¬ 12 + i < 3 := by omega
    have h9 : ¬ 12 + i < 9 := by omega
    rw [if_neg h3, if_neg h9, BitVec.getLsbD_of_ge _ _ (by omega)]
    simp

theorem Fsm.terminal_iff {f : Fsm} : f.terminal = true ↔ f = .silence ∨ f = .done ∨ f = .unsynced := by
  cases f <;> decide

/-- The codes 3 and 7 never occur, and bit 2 of the code is the terminal states' (R22). -/
theorem Fsm.code_spec (f : Fsm) : f.code ≠ 3 ∧ f.code ≠ 7 ∧ (f.code.getLsbD 2 = true ↔ f.terminal = true) := by
  cases f <;> decide

theorem ne_zero_iff_getLsbD {n : Nat} {v : BitVec n} : v ≠ 0 ↔ ∃ k < n, v.getLsbD k = true := by
  rw [Ne, ← not_iff_comm]
  simp only [not_exists, not_and, Bool.not_eq_true]
  constructor
  · intro h
    exact BitVec.eq_of_getLsbD_eq fun k hk => by simpa using h k hk
  · rintro rfl k _
    simp

/-- Settles O52: the codes are read off, and a level is its bit of the state. -/
theorem outputLevels : Obligations.OutputLevels := by
  refine ⟨⟨rfl, rfl, rfl, rfl, rfl, rfl⟩, Fsm.code_spec, fun s => ⟨?_, ?_⟩⟩
  · rw [← Fsm.terminal_iff]
    exact (Fsm.code_spec s.call.fsm).2.2
  · rw [State.errLevel, decide_eq_true_iff, ne_zero_iff_getLsbD]

/-! Every invariant at reset. -/

theorem resetWith_callOk (p : Params) : CallOk (State.resetWith p) := by
  simp [CallOk, Call.reset, Fsm.running, Fsm.terminal]

theorem not_synced_resetWith (p : Params) : ¬ Synced (State.resetWith p) := by
  simp [Synced, Call.reset]

theorem resetWith_inv {p : Params} (hp : p.Legal) : Inv (State.resetWith p) := by
  have hc : ConfigOk (State.resetWith p) := ⟨hp, cfgReset_legal hp⟩
  exact ⟨hc, historyOk_of_reset hc rfl, buffersOk_of_empty rfl rfl rfl, resetWith_callOk p,
    windowOk_of_not_running rfl, fun h => absurd h (not_synced_resetWith p),
    fun h => absurd h (not_synced_resetWith p), shiftOk_of_not_search (by simp [Call.reset])⟩

/-- Settles O53: no call has begun, so the conditions on a call hold of nothing, and the rest is the table of R48. -/
theorem resetMeetsInvariant : Obligations.ResetMeetsInvariant :=
  ⟨fun _ hp => resetWith_inv hp, resetWith_inv (by decide)⟩

end Sys2Proof.Machine
end

section
/-! SUPPORT. What each command can do, said once with the command that does it: the change, the refusal and the response
(spec 43_orchestrator.md R200, 20_memory.md R71, R74). -/

namespace Sys2Proof.Machine

variable {s t : State} {i : Instr}

/-- The commands that answer (20_memory.md R71). -/
abbrev IsRead (i : Instr) : Prop :=
  (∃ reg, i = .rdreg reg) ∨ (∃ x, i = .rdmsg x) ∨ (∃ x, i = .rdraw x)

/-- `Change` with the command that makes it, and with what it does to the errors and the responses. -/
inductive CommandEffect (s : State) : Instr → State → Prop
  | none {i : Instr} : ¬ IsRead i → CommandEffect s i s
  | refused {i : Instr} (e : ErrBit) : ¬ IsRead i → CommandEffect s i (raise e s)
  | answered {i : Instr} (v : Word) (e : BitVec 7) : IsRead i →
      CommandEffect s i ((s.withErr e).withResponses (s.responses ++ [v]))
  | reset : CommandEffect s .srst (resetState s)
  | write (r : CfgReg) (d : Half) : s.call.fsm.running = false → legalValue s.params r d = true →
      CommandEffect s (.wrreg (.cfg r) d) (writeCfg r d s)
  | start : s.call.fsm.running = false → CommandEffect s .start (decideAtStart (openCall s))
  | sample (d : Half) : s.call.fsm.running = true → CommandEffect s (.sample d) (sampleRunning d s)
  | skip : s.call.fsm.running = true → CommandEffect s .skip (posCheck (countSkip (advancePos s)))
  | endSearch : s.call.fsm = .search → CommandEffect s .endCall (endSearch s)
  | endPayload : s.call.fsm = .payload → CommandEffect s .endCall (endPayload s)
  | calibrate (d : Half) : s.call.fsm.running = false → CommandEffect s (.cals d) (calibrate d s)
  | calsGlitch (d : Half) : s.call.fsm.running = false → CommandEffect s (.cals d) (countGlitch s)
  | clear : s.call.fsm.running = false → CommandEffect s .clrh (clearHistory s)

/-- What a command can do, with the command that does it (43_orchestrator.md R200). -/
theorem exec_effect (h : exec i s = .next t) : CommandEffect s i t := by
  have answered : IsRead i → (∃ v e, t = (s.withErr e).withResponses (s.responses ++ [v])) →
      CommandEffect s i t := by
    rintro hi ⟨v, e, rfl⟩
    exact .answered v e hi
  cases i with
  | nop => cases h; exact .none (by simp)
  | srst => cases h; exact .reset
  | wrreg reg d =>
    rcases execWrreg_cases h with ⟨_, rfl⟩ | ⟨hn, ⟨_, rfl⟩ | ⟨_, _, _, rfl⟩ | ⟨r, rfl, hl, rfl⟩⟩
    · exact .refused _ (by simp)
    · exact .refused _ (by simp)
    · exact .refused _ (by simp)
    · exact .write r d hn hl
  | rdreg reg => exact answered (.inl ⟨reg, rfl⟩) (execRdreg_cases h)
  | start =>
    rcases execStart_cases h with ⟨_, rfl⟩ | ⟨hn, rfl⟩
    · exact .refused _ (by simp)
    · exact .start hn
  | sample d =>
    rcases execSample_cases h with ⟨_, rfl⟩ | ⟨_, rfl⟩ | ⟨hr, rfl⟩
    · exact .refused _ (by simp)
    · exact .none (by simp)
    · exact .sample d hr
  | skip =>
    rcases execSkip_cases h with ⟨_, rfl⟩ | ⟨_, rfl⟩ | ⟨hr, rfl⟩
    · exact .refused _ (by simp)
    · exact .none (by simp)
    · exact .skip hr
  | endCall =>
    rcases execEnd_cases h with ⟨_, rfl⟩ | ⟨_, rfl⟩ | ⟨hf, rfl⟩ | ⟨hf, rfl⟩
    · exact .refused _ (by simp)
    · exact .none (by simp)
    · exact .endSearch hf
    · exact .endPayload hf
  | cals d =>
    rcases execCals_cases h with ⟨_, rfl⟩ | ⟨hn, _, ⟨_, rfl⟩ | ⟨_, _, rfl⟩ | ⟨_, _, rfl⟩⟩
    · exact .refused _ (by simp)
    · exact .calsGlitch d hn
    · exact .none (by simp)
    · exact .calibrate d hn
  | clrh =>
    rcases execClrh_cases h with ⟨_, rfl⟩ | ⟨hn, rfl⟩
    · exact .refused _ (by simp)
    · exact .clear hn
  | rdmsg i => exact answered (.inr (.inl ⟨i, rfl⟩)) (execRdmsg_cases h)
  | rdraw i => exact answered (.inr (.inr ⟨i, rfl⟩)) (execRdraw_cases h)

/-! The responses (20_memory.md R71). -/

theorem CommandEffect.responses_of_read (h : CommandEffect s i t) (hi : IsRead i) :
    ∃ v, t.responses = s.responses ++ [v] := by
  cases h with
  | none hn => exact absurd hi hn
  | refused e hn => exact absurd hi hn
  | answered v e _ => exact ⟨v, rfl⟩
  | _ => simp [IsRead] at hi

theorem CommandEffect.responses_of_not_read (h : CommandEffect s i t) (hn : ¬ IsRead i) :
    t.responses = s.responses := by
  cases h with
  | answered v e hi => exact absurd hi hn
  | _ => simp

/-- Settles O20: of the effects of a command only an answer adds to the responses, and exactly the reads answer. -/
theorem oneResponsePerRead : Obligations.OneResponsePerRead := fun _ _ _ h =>
  ⟨(exec_effect h).responses_of_read, fun hreg hmsg hraw =>
    (exec_effect h).responses_of_not_read (by simp [IsRead, hreg, hmsg, hraw])⟩

/-! The configuration (20_memory.md R74, 44_register_access.md R231). -/

theorem CommandEffect.cfg_of_running (h : CommandEffect s i t) (hr : s.call.fsm.running = true) (hi : i ≠ .srst) :
    t.cfg = s.cfg := by
  cases h with
  | reset => exact absurd rfl hi
  | write r d hn _ => simp [hr] at hn
  | _ => simp

/-- Settles O50: `WRREG`, the one command besides `SRST` that writes the configuration, is refused while running. -/
theorem configurationLockedWhileRunning : Obligations.ConfigurationLockedWhileRunning := by
  intro s t h hr
  rcases step_cases h with ⟨_, rfl⟩ | ⟨rest, hp, _⟩ | ⟨_, rest, _, _, _, rfl⟩ | ⟨w, rest, i, hp, hi, hx⟩
  · exact .inl rfl
  · exact .inr (.inl ⟨rest, hp⟩)
  · exact .inl rfl
  · by_cases hsrst : i = .srst
    · exact .inr (.inr ⟨w, rest, hp, hsrst ▸ hi⟩)
    · exact .inl ((exec_effect hx).cfg_of_running hr hsrst)

end Sys2Proof.Machine
end

section
/-! SUPPORT. The buffers only grow at their ends (spec 20_memory.md R60, R61, R66, R67, 42_reassembler.md R181, R183,
R184). -/

namespace Sys2Proof.Machine

variable {s t x : State} {i : Instr}

/-- `l'` is `l` with at most `n` elements more at its end. -/
def GrowsBy {α : Type} (n : Nat) (l l' : List α) : Prop := ∃ xs, xs.length ≤ n ∧ l' = l ++ xs

theorem growsBy_of_eq {α : Type} {n : Nat} {l l' : List α} (h : l' = l) : GrowsBy n l l' :=
  ⟨[], by simp, by simp [h]⟩

theorem growsBy_append {α : Type} {n : Nat} (l : List α) {xs : List α} (h : xs.length ≤ n) : GrowsBy n l (l ++ xs) :=
  ⟨xs, h, rfl⟩

theorem GrowsBy.trans {α : Type} {m n : Nat} {l l' l'' : List α} (h : GrowsBy m l l') (h' : GrowsBy n l' l'') :
    GrowsBy (m + n) l l'' := by
  obtain ⟨xs, hxs, rfl⟩ := h
  obtain ⟨ys, hys, rfl⟩ := h'
  exact ⟨xs ++ ys, by rw [List.length_append]; omega, by rw [List.append_assoc]⟩

/-- Every index but the `n` from the old end on reads as before. -/
theorem GrowsBy.getElem?_eq {α : Type} {n : Nat} {l l' : List α} (h : GrowsBy n l l') {j : Nat}
    (hj : j < l.length ∨ l.length + n ≤ j) : l'[j]? = l[j]? := by
  obtain ⟨xs, hxs, rfl⟩ := h
  rcases hj with hj | hj
  · exact List.getElem?_append_left hj
  · rw [List.getElem?_eq_none (by rw [List.length_append]; omega), List.getElem?_eq_none (by omega)]

/-! One bit adds at most one bit to `RAW`, and to `MSG` at most one byte, which only an eighth bit completes. -/

theorem emitBit_growsBy_raw (b : Bool) (s : State) : GrowsBy 1 s.mem.raw (emitBit b s).mem.raw := by
  rw [emitBit_mem_raw]
  split
  · exact growsBy_append _ (by simp)
  · exact growsBy_of_eq rfl

theorem emitBit_msg_of_not_payload (b : Bool) (hf : s.call.fsm ≠ .payload) :
    (emitBit b s).mem.msg = s.mem.msg := by
  cases h : s.call.fsm with
  | payload => exact absurd h hf
  | search => exact emitBit_search_msg s b h
  | _ => simp [emitBit, h]

theorem emitBit_msg_of_partial (b : Bool) (hn : s.call.bitn.toNat + 1 ≠ 8) :
    (emitBit b s).mem.msg = s.mem.msg := by
  by_cases hf : s.call.fsm = .payload
  · rw [emitBit_payload_msg s b hf, if_neg fun ⟨heighth, _⟩ => hn heighth]
  · exact emitBit_msg_of_not_payload b hf

theorem emitBit_growsBy_msg (b : Bool) (s : State) : GrowsBy 1 s.mem.msg (emitBit b s).mem.msg := by
  by_cases hf : s.call.fsm = .payload
  · rw [emitBit_payload_msg s b hf]
    split
    · exact growsBy_append _ (by simp)
    · exact growsBy_of_eq rfl
  · exact growsBy_of_eq (emitBit_msg_of_not_payload b hf)

/-- The two bits of a tone symbol complete at most one byte: after an eighth bit the next byte has none (R182). -/
theorem emitBit_emitBit_growsBy_msg (a b : Bool) (s : State) :
    GrowsBy 1 s.mem.msg (emitBit b (emitBit a s)).mem.msg := by
  by_cases hfull : s.call.fsm = .payload ∧ s.call.bitn.toNat + 1 = 8
  · obtain ⟨hf, hn⟩ := hfull
    have hempty : (emitBit a s).call.bitn.toNat = 0 := by rw [emitBit_payload_bitn s a hf, if_pos hn]
    rw [emitBit_msg_of_partial b (by omega)]
    exact emitBit_growsBy_msg a s
  · have hkeep : (emitBit a s).mem.msg = s.mem.msg := by
      by_cases hf : s.call.fsm = .payload
      · exact emitBit_msg_of_partial a fun hn => hfull ⟨hf, hn⟩
      · exact emitBit_msg_of_not_payload a hf
    rw [← hkeep]
    exact emitBit_growsBy_msg b _

/-- What a record stores (41_synchronizer.md R145, R146, R167): at most one byte and two bits. -/
theorem SampleEffect.growsBy {d : Half} (h : SampleEffect d s x) :
    GrowsBy 1 s.mem.msg x.mem.msg ∧ GrowsBy 2 s.mem.raw x.mem.raw := by
  cases h with
  | symbol k _ _ =>
    exact ⟨emitBit_emitBit_growsBy_msg _ _ (advancePos s),
      (emitBit_growsBy_raw _ (advancePos s)).trans (emitBit_growsBy_raw _ _)⟩
  | bit b _ _ _ =>
    have hmem : (classifyUpdate d (windowSample s.call.pos.toNat d (advancePos s))).mem = s.mem := by simp
    rw [posCheck_mem, ← hmem]
    exact ⟨emitBit_growsBy_msg b _, (emitBit_growsBy_raw b _).trans (growsBy_of_eq (n := 1) rfl)⟩
  | _ => exact ⟨growsBy_of_eq (by simp), growsBy_of_eq (by simp)⟩

theorem exec_sample_growsBy {d : Half} (h : exec (.sample d) s = .next t) :
    GrowsBy 1 s.mem.msg t.mem.msg ∧ GrowsBy 2 s.mem.raw t.mem.raw := by
  rcases execSample_cases h with ⟨_, rfl⟩ | ⟨_, rfl⟩ | ⟨_, rfl⟩
  · exact ⟨growsBy_of_eq rfl, growsBy_of_eq rfl⟩
  · exact ⟨growsBy_of_eq rfl, growsBy_of_eq rfl⟩
  · exact (sampleRunning_effect d s).growsBy

theorem CommandEffect.mem_of_not_sample (h : CommandEffect s i t) (hsample : ∀ d, i ≠ .sample d)
    (hstart : i ≠ .start) (hsrst : i ≠ .srst) : t.mem = s.mem := by
  cases h with
  | sample d _ => exact absurd rfl (hsample d)
  | start _ => exact absurd rfl hstart
  | reset => exact absurd rfl hsrst
  | _ => simp

/-- After the end of a call its state stays but for the glitches that `CALS` counts (42_reassembler.md R184,
10_state.md R39, log 16). -/
theorem CommandEffect.call_of_terminal (h : CommandEffect s i t) (hf : s.call.fsm.terminal = true)
    (hstart : i ≠ .start) (hsrst : i ≠ .srst) :
    t.mem = s.mem ∧ (t.call = s.call ∨ ∃ d, i = .cals d ∧ t = countGlitch s) := by
  have hn := Fsm.not_running_of_terminal hf
  cases h with
  | reset => exact absurd rfl hsrst
  | start _ => exact absurd rfl hstart
  | sample d hr => simp [hn] at hr
  | skip hr => simp [hn] at hr
  | endSearch hs => simp [hs, Fsm.terminal] at hf
  | endPayload hp => simp [hp, Fsm.terminal] at hf
  | calsGlitch d _ => exact ⟨rfl, .inr ⟨d, rfl, rfl⟩⟩
  | _ => exact ⟨by simp, .inl (by simp)⟩

/-- Settles O46: a `SAMPLE` appends to the buffers, and no command but it, `START` and `SRST` touches them; after the end of
a call only a glitch under `CALS` leaves a trace in its state. -/
theorem buffersAppendOnly : Obligations.BuffersAppendOnly := by
  intro i s t h
  refine ⟨?_, ?_, ?_⟩
  · rintro ⟨d, rfl⟩
    obtain ⟨hmsg, hraw⟩ := exec_sample_growsBy h
    exact ⟨fun j hj => hmsg.getElem?_eq (by omega), fun j hj hj' => hraw.getElem?_eq (by omega)⟩
  · intro hsample hstart hsrst
    rw [(exec_effect h).mem_of_not_sample hsample hstart hsrst]
    exact ⟨fun _ => rfl, fun _ => rfl⟩
  · intro hf hstart hsrst
    obtain ⟨hm, hc | ⟨d, rfl, rfl⟩⟩ := (exec_effect h).call_of_terminal hf hstart hsrst
    · exact ⟨hm, by rw [hc], fun _ => hc⟩
    · exact ⟨hm, rfl, fun hcals => absurd rfl (hcals d)⟩

end Sys2Proof.Machine
end

section
/-! SUPPORT. The decoder against the encoder (spec 30_encoding.md R80 to R85): a word is the command whose encoding it
agrees with on the bits of the command's format. -/

namespace Sys2Proof

variable {w : Word} {i : Instr} {op : BitVec 4} {reg : RegNumber} {data : Half}

/-! A word through the masks of R81's formats. -/

theorem fieldsWord_inj {op' : BitVec 4} {reg' : RegNumber} {data' : Half} :
    fieldsWord op reg data = fieldsWord op' reg' data' ↔ op = op' ∧ reg = reg' ∧ data = data' := by
  constructor
  · intro h
    exact ⟨by simpa using congrArg opField h, by simpa using congrArg regField h,
      by simpa using congrArg dataField h⟩
  · rintro ⟨rfl, rfl, rfl⟩
    rfl

/-- The four fields of R80 make up the word. -/
theorem append_fields (w : Word) : opField w ++ (w.extractLsb' 24 4 ++ (regField w ++ dataField w)) = w := by
  have hlow : regField w ++ dataField w = w.extractLsb' 0 24 :=
    BitVec.extractLsb'_append_extractLsb'_eq_extractLsb' rfl
  have hmid : w.extractLsb' 24 4 ++ w.extractLsb' 0 24 = w.extractLsb' 0 28 :=
    BitVec.extractLsb'_append_extractLsb'_eq_extractLsb' rfl
  have hall : opField w ++ w.extractLsb' 0 28 = w.extractLsb' 0 32 :=
    BitVec.extractLsb'_append_extractLsb'_eq_extractLsb' rfl
  rw [hlow, hmid, hall, BitVec.extractLsb'_eq_self]

/-- Masking a word masks each of its fields; bits 27:24 are in no format (R80). -/
theorem and_fieldsWord (w : Word) (op : BitVec 4) (reg : RegNumber) (data : Half) :
    w &&& fieldsWord op reg data = fieldsWord (opField w &&& op) (regField w &&& reg) (dataField w &&& data) := by
  have hfields :
      (opField w ++ (w.extractLsb' 24 4 ++ (regField w ++ dataField w))) &&& (op ++ (0#4 ++ (reg ++ data))) =
      (opField w &&& op) ++ (0#4 ++ ((regField w &&& reg) ++ (dataField w &&& data))) := by
    simp only [BitVec.and_append, BitVec.and_zero]
  exact (congrArg (· &&& fieldsWord op reg data) (append_fields w)).symm.trans hfields

theorem and_maskN_eq_iff : w &&& 0xF0000000 = fieldsWord op 0 0 ↔ opField w = op := by
  rw [show (0xF0000000 : Word) = fieldsWord (BitVec.allOnes 4) 0 0 from rfl, and_fieldsWord, fieldsWord_inj,
    BitVec.and_allOnes]
  simp

theorem and_maskD_eq_iff :
    w &&& 0xF000FFFF = fieldsWord op 0 data ↔ opField w = op ∧ dataField w = data := by
  rw [show (0xF000FFFF : Word) = fieldsWord (BitVec.allOnes 4) 0 (BitVec.allOnes 16) from rfl, and_fieldsWord,
    fieldsWord_inj, BitVec.and_allOnes, BitVec.and_allOnes]
  simp

theorem and_maskR_eq_iff :
    w &&& 0xF0FF0000 = fieldsWord op reg 0 ↔ opField w = op ∧ regField w = reg := by
  rw [show (0xF0FF0000 : Word) = fieldsWord (BitVec.allOnes 4) (BitVec.allOnes 8) 0 from rfl, and_fieldsWord,
    fieldsWord_inj, BitVec.and_allOnes, BitVec.and_allOnes]
  simp

theorem and_maskW_eq_iff :
    w &&& 0xF0FFFFFF = fieldsWord op reg data ↔ opField w = op ∧ regField w = reg ∧ dataField w = data := by
  rw [show (0xF0FFFFFF : Word) = fieldsWord (BitVec.allOnes 4) (BitVec.allOnes 8) (BitVec.allOnes 16) from rfl,
    and_fieldsWord, fieldsWord_inj, BitVec.and_allOnes, BitVec.and_allOnes, BitVec.and_allOnes]

/-! The register operand (10_state.md R25, R34). -/

theorem ofNumber_wellFormed (n : RegNumber) : (Reg.ofNumber n).wellFormed = true := (ofNumber_spec n).1

theorem number_ofNumber (n : RegNumber) : (Reg.ofNumber n).number = n := (ofNumber_spec n).2.1

theorem ofNumber_number {r : Reg} (h : r.wellFormed = true) : Reg.ofNumber r.number = r := by
  cases r with
  | cfg r => exact ofNumber_cfg r
  | stat r => exact ofNumber_stat r
  | unimplemented n => exact (ofNumber_spec n).2.2 h

/-! The decoder (R81, R83, R84). -/

/-- The word of a command carries the command's opcode (R83). -/
theorem opField_of_decode (h : decode w = .ok i) : opField w = Laws.OpcodeField.opcode i := by
  unfold decode at h
  split at h <;> cases h <;> exact BitVec.eq_of_toNat_eq ‹_›

theorem agrees_of_decode (h : decode w = .ok i) : i.wellFormed = true ∧ w &&& i.formatMask = encode i := by
  have hop := opField_of_decode h
  cases i with
  | nop | srst | start | skip | endCall | clrh => exact ⟨rfl, and_maskN_eq_iff.2 hop⟩
  | sample data | cals data | rdmsg data | rdraw data =>
    have hdata : dataField w = data := by simpa [decode, hop, Laws.OpcodeField.opcode] using h
    exact ⟨rfl, and_maskD_eq_iff.2 ⟨hop, hdata⟩⟩
  | rdreg reg =>
    obtain rfl : Reg.ofNumber (regField w) = reg := by simpa [decode, hop, Laws.OpcodeField.opcode] using h
    exact ⟨ofNumber_wellFormed _, and_maskR_eq_iff.2 ⟨hop, (number_ofNumber _).symm⟩⟩
  | wrreg reg data =>
    obtain ⟨rfl, hdata⟩ : Reg.ofNumber (regField w) = reg ∧ dataField w = data := by
      simpa [decode, hop, Laws.OpcodeField.opcode] using h
    exact ⟨ofNumber_wellFormed _, and_maskW_eq_iff.2 ⟨hop, (number_ofNumber _).symm, hdata⟩⟩

theorem decode_of_agrees (hi : i.wellFormed = true) (h : w &&& i.formatMask = encode i) :
    decode w = .ok i := by
  cases i with
  | nop | srst | start | skip | endCall | clrh => simp [decode, and_maskN_eq_iff.1 h]
  | sample _ | cals _ | rdmsg _ | rdraw _ =>
    obtain ⟨hop, hdata⟩ := and_maskD_eq_iff.1 h
    simp [decode, hop, hdata]
  | rdreg _ =>
    obtain ⟨hop, hreg⟩ := and_maskR_eq_iff.1 h
    simp [decode, hop, hreg, ofNumber_number hi]
  | wrreg _ _ =>
    obtain ⟨hop, hreg, hdata⟩ := and_maskW_eq_iff.1 h
    simp [decode, hop, hreg, hdata, ofNumber_number hi]

/-- What the decoder answers, said once: a word is the well-formed command whose encoding it agrees with on the bits of
the command's format. -/
theorem decode_eq_ok_iff : decode w = .ok i ↔ i.wellFormed = true ∧ w &&& i.formatMask = encode i :=
  ⟨agrees_of_decode, fun ⟨hi, h⟩ => decode_of_agrees hi h⟩

/-- The encoder writes 0 in the bits that the format does not use. -/
theorem encode_and_formatMask (i : Instr) : encode i &&& i.formatMask = encode i := by
  cases i with
  | nop | srst | start | skip | endCall | clrh => exact and_maskN_eq_iff.2 (opField_fieldsWord _ _ _)
  | sample _ | cals _ | rdmsg _ | rdraw _ =>
    exact and_maskD_eq_iff.2 ⟨opField_fieldsWord _ _ _, dataField_fieldsWord _ _ _⟩
  | rdreg _ => exact and_maskR_eq_iff.2 ⟨opField_fieldsWord _ _ _, regField_fieldsWord _ _ _⟩
  | wrreg _ _ =>
    exact and_maskW_eq_iff.2
      ⟨opField_fieldsWord _ _ _, regField_fieldsWord _ _ _, dataField_fieldsWord _ _ _⟩

theorem decode_of_illegal (h : 0xC ≤ (opField w).toNat) : decode w = .error (.illegalOpcode (opField w)) := by
  unfold decode
  split
  case h_13 => rfl
  all_goals omega

theorem exists_decode_of_legal (h : (opField w).toNat < 0xC) : ∃ i, decode w = .ok i := by
  unfold decode
  split
  case h_13 => interval_cases (opField w).toNat <;> contradiction
  all_goals exact ⟨_, rfl⟩

/-- Settles O1: a command's word agrees with itself on the bits of the command's format. -/
theorem decodeInvertsEncode : Obligations.DecodeInvertsEncode := fun i hi =>
  decode_eq_ok_iff.2 ⟨hi, encode_and_formatMask i⟩

/-- Settles O2: what the decoder answers, read from the word to the command. -/
theorem encodeKeepsUsedBits : Obligations.EncodeKeepsUsedBits := fun _ _ h =>
  have ⟨hi, hw⟩ := decode_eq_ok_iff.1 h
  ⟨hi, hw.symm⟩

end Sys2Proof

namespace Sys2Proof.Machine

variable {s : State} {w : Word} {rest : List PortEvent}

/-! The step on a command word (43_orchestrator.md R200). -/

theorem step_of_decode_ok {i : Instr} (hp : s.port = .command w :: rest) (hd : decode w = .ok i) :
    step s = exec i (s.withPort rest) := by
  simp only [step, hp, hd]

theorem step_of_decode_error {e : DecodeError} (hp : s.port = .command w :: rest) (hd : decode w = .error e) :
    step s = .next (raise .ill (s.withPort rest)) := by
  simp only [step, hp, hd, illegalCommand]

/-- Settles O3: the decoder looks at a word through the mask alone, and the step through the decoder alone. -/
theorem unusedBitsIgnored : Obligations.UnusedBitsIgnored := by
  intro w w' i hw hmask
  have hw' : decode w' = .ok i := by
    rw [decode_eq_ok_iff] at hw ⊢
    rwa [hmask]
  refine ⟨hw', fun s rest => ?_⟩
  rw [step_of_decode_ok (State.withPort_port ..) hw', step_of_decode_ok (State.withPort_port ..) hw]
  rfl

/-- Settles O4: opcodes below 0xC decode and the others do not, and a word that does not decode only raises `ILL`. -/
theorem illegalOpcodeRaisesIll : Obligations.IllegalOpcodeRaisesIll := by
  refine ⟨fun w => ?_, fun s w rest h => ?_⟩
  · rcases Nat.lt_or_ge (opField w).toNat 0xC with hlt | hge
    · obtain ⟨i, hi⟩ := exists_decode_of_legal hlt
      exact .inr ⟨hlt, i, hi, (agrees_of_decode hi).1⟩
    · exact .inl ⟨hge, decode_of_illegal hge⟩
  · exact step_of_decode_error (s := { s with port := .command w :: rest }) rfl (decode_of_illegal h)

end Sys2Proof.Machine
end

section
/-! SUPPORT. What the classifier answers and does under each policy, an equation for each case (spec 40_classifier.md R112
to R117, R120, R121), and the rules that are one such equation. -/

namespace Sys2Proof.Machine

variable {c : Cfg} {k : Classifier} {s : State}

/-! The bit of `Classify`. -/

theorem classifyBit_fixed (v : Half) (hp : c.policy = .fixed) :
    classifyBit c k v = some (decide (c.clsThr.toInt < v.toInt)) := by
  rw [classifyBit, hp]
  rfl

theorem classifyBit_adapt_nil (v : Half) (hp : c.policy = .adapt) (hk : k.hist = []) : classifyBit c k v = none := by
  simp [classifyBit, hp, hk]

theorem classifyBit_adapt_mean (v : Half) (hp : c.policy = .adapt) (hb : c.baseMedian = false) (hk : k.hist ≠ []) :
    classifyBit c k v = some (meanTest c k.hist v) := by
  simp [classifyBit, hp, hb, hk]

theorem classifyBit_adapt_median (v : Half) (hp : c.policy = .adapt) (hb : c.baseMedian = true) (hk : k.hist ≠ []) :
    classifyBit c k v = some (base2Test c (median2 k.hist) v) := by
  simp [classifyBit, hp, hb, hk]

theorem classifyBit_uncalibrated (v : Half) (hp : c.policy = .cal) (hk : k.calValid = false) :
    classifyBit c k v = none := by
  simp [classifyBit, hp, hk]

theorem classifyBit_calibrated (v : Half) (hp : c.policy = .cal) (hk : k.calValid = true) :
    classifyBit c k v = some (base2Test c k.calBase2.toInt v) := by
  simp [classifyBit, hp, hk]

/-! The effect of `Classify`. -/

theorem classifyUpdate_fixed (v : Half) (hp : s.cfg.policy = .fixed) : classifyUpdate v s = s := by
  simp [classifyUpdate, hp]

theorem classifyUpdate_adapt_nil (v : Half) (hp : s.cfg.policy = .adapt) (hk : s.cls.hist = []) :
    classifyUpdate v s =
      (countWarm s).withCls { s.cls with hist := pushSample (zext16 s.cfg.win) [] v } := by
  simp [classifyUpdate, hp, hk]

theorem classifyUpdate_adapt (v : Half) (hp : s.cfg.policy = .adapt) (hk : s.cls.hist ≠ []) :
    classifyUpdate v s = s.withCls { s.cls with hist := pushSample (zext16 s.cfg.win) s.cls.hist v } := by
  simp [classifyUpdate, hp, hk]

theorem classifyUpdate_uncalibrated (v : Half) (hp : s.cfg.policy = .cal) (hk : s.cls.calValid = false) :
    classifyUpdate v s = countWarm (raise .noCal s) := by
  simp [classifyUpdate, hp, hk]

theorem classifyUpdate_calibrated (v : Half) (hp : s.cfg.policy = .cal) (hk : s.cls.calValid = true) :
    classifyUpdate v s = s := by
  simp [classifyUpdate, hp, hk]

/-- Settles O23: the bit under FIXED is the comparison itself. -/
theorem fixedThresholdIsStrict : Obligations.FixedThresholdIsStrict := by
  intro s v hp
  rw [classifyBit_fixed v hp]
  exact ⟨fun h => congrArg some (decide_eq_true h), fun h => congrArg some (decide_eq_false (Int.not_lt.2 h)),
    classifyUpdate_fixed v hp⟩

/-- Settles O26: the two cases of CAL. -/
theorem uncalibratedGivesNoBit : Obligations.UncalibratedGivesNoBit := fun _ v hp =>
  ⟨fun hk => ⟨classifyBit_uncalibrated v hp hk, classifyUpdate_uncalibrated v hp hk⟩, classifyUpdate_calibrated v hp⟩

/-- Settles O25: the push has room, or the window is full and the head leaves. -/
theorem adaptPushesAndEvicts : Obligations.AdaptPushesAndEvicts := by
  intro s v hp
  refine ⟨fun hk => ⟨classifyBit_adapt_nil v hp hk, fun hwin => ?_⟩, fun x rest hk hroom => ?_, fun x rest hk hfull => ?_⟩
  · rw [classifyUpdate_adapt_nil v hp hk, pushSample_of_room v hwin]
    rfl
  · rw [classifyUpdate_adapt v hp (by simp [hk]), pushSample_of_room (win := zext16 s.cfg.win) v hroom, hk]
    rfl
  · rw [classifyUpdate_adapt v hp (by simp [hk]), pushSample_of_full (win := zext16 s.cfg.win) v hfull, hk]
    rfl

end Sys2Proof.Machine
end

section
/-! SUPPORT. The baselines of the classifier: the median by any sorted arrangement, the cross-multiplied tests against the
rational inequality, and a constant stream (spec 40_classifier.md R113 to R115, R120, R125, R126). -/

namespace Sys2Proof.Machine

variable {hist : List Half} {srt : List Int}

/-- The ascending arrangement of a list is unique. -/
theorem insertionSort_samples (hperm : srt.Perm (hist.map BitVec.toInt)) (hsrt : srt.Pairwise (· ≤ ·)) :
    (samples hist).insertionSort (· ≤ ·) = srt :=
  ((List.perm_insertionSort _ _).trans hperm.symm).eq_of_pairwise' (List.pairwise_insertionSort _ _) hsrt

theorem median2_of_odd {k : Nat} (hlen : hist.length = 2 * k + 1) :
    median2 hist = 2 * ((samples hist).insertionSort (· ≤ ·)).getD k 0 := by
  have hmid : (2 * k + 1 - 1) / 2 = k := by omega
  rw [median2, hlen, if_pos (by omega), hmid]

theorem median2_of_even {k : Nat} (hlen : hist.length = 2 * k + 2) :
    median2 hist = ((samples hist).insertionSort (· ≤ ·)).getD k 0 +
      ((samples hist).insertionSort (· ≤ ·)).getD (k + 1) 0 := by
  have hlow : (2 * k + 2) / 2 - 1 = k := by omega
  have hhigh : (2 * k + 2) / 2 = k + 1 := by omega
  rw [median2, hlen, if_neg (by omega), hlow, hhigh]

/-- Settles O22: the model's sort is one ascending arrangement, and there is no other. -/
theorem medianOfSortedSamples : Obligations.MedianOfSortedSamples := by
  intro hist srt hperm hsrt
  rw [← insertionSort_samples hperm hsrt]
  exact ⟨fun _ => median2_of_odd, fun _ => median2_of_even⟩

/-! The integer tests and the inequality they stand for (R125). -/

/-- Multiplied by the positive number of samples, the test of R113 is that of R114. -/
theorem meanTest_iff (c : Cfg) (v : Half) (hne : hist ≠ []) : meanTest c hist v = true ↔
    (c.deltaThr.toInt : ℚ) ≤ (v.toInt : ℚ) - ((hist.map BitVec.toInt).sum : ℚ) / (hist.length : ℚ) := by
  have hpos : (0 : ℚ) < hist.length := Nat.cast_pos.2 (List.length_pos_iff.2 hne)
  have hint : meanTest c hist v = true ↔
      (hist.map BitVec.toInt).sum ≤ (v.toInt - c.deltaThr.toInt) * hist.length := by
    rw [meanTest, decide_eq_true_iff, ge_iff_le, le_sub_comm, ← mul_sub, mul_comm]
    rfl
  rw [hint, le_sub_comm, div_le_iff₀ hpos]
  exact_mod_cast Iff.rfl

/-- Doubled, the test against a baseline is that against twice the baseline (R115, R120). -/
theorem base2Test_iff (c : Cfg) (base2 : Int) (v : Half) : base2Test c base2 v = true ↔
    (c.deltaThr.toInt : ℚ) ≤ (v.toInt : ℚ) - (base2 : ℚ) / 2 := by
  have hint : base2Test c base2 v = true ↔ base2 ≤ (v.toInt - c.deltaThr.toInt) * 2 := by
    rw [base2Test, decide_eq_true_iff, ge_iff_le, le_sub_comm, ← mul_sub, mul_comm]
    rfl
  rw [hint, le_sub_comm, div_le_iff₀ two_pos]
  exact_mod_cast Iff.rfl

/-- Settles O24: each policy's bit is one of the two tests. -/
theorem baselineTestsAreExact : Obligations.BaselineTestsAreExact := fun c _ v =>
  ⟨fun hp hb hk => ⟨_, classifyBit_adapt_mean v hp hb hk, meanTest_iff c v hk⟩,
    fun hp hb hk => ⟨_, classifyBit_adapt_median v hp hb hk, base2Test_iff c _ v⟩,
    fun hp hk => ⟨_, classifyBit_calibrated v hp hk, base2Test_iff c _ v⟩⟩

/-! A history of equal values (R126): the mean and the median are that value. -/

theorem sum_samples_replicate (n : Nat) (v : Half) : (samples (List.replicate n v)).sum = n * v.toInt := by
  simp [samples, sext16]

theorem median2_replicate (n : Nat) (v : Half) : median2 (List.replicate (n + 1) v) = 2 * v.toInt := by
  have hget : ∀ i, i < n + 1 → (List.replicate (n + 1) v.toInt).getD i 0 = v.toInt := fun i hi =>
    List.getD_replicate _ hi
  obtain ⟨hodd, heven⟩ := medianOfSortedSamples (List.replicate (n + 1) v) (List.replicate (n + 1) v.toInt)
    (by rw [List.map_replicate]) (List.pairwise_replicate.2 (.inr le_rfl))
  rcases Nat.even_or_odd' n with ⟨k, rfl | rfl⟩
  · rw [hodd k (by simp), hget k (by omega)]
  · rw [heven k (by simp), hget k (by omega), hget (k + 1) (by omega), two_mul]

theorem meanTest_replicate (c : Cfg) (n : Nat) (v : Half) :
    meanTest c (List.replicate (n + 1) v) v = decide (c.deltaThr.toInt ≤ 0) := by
  have hpos : (0 : Int) < (n + 1 : Nat) := by omega
  rw [meanTest, sum_samples_replicate, List.length_replicate, decide_eq_decide, ge_iff_le, sext16, sext16,
    sub_self]
  simpa only [mul_zero] using mul_le_mul_iff_right₀ (b := c.deltaThr.toInt) (c := 0) hpos

theorem base2Test_double (c : Cfg) (v : Half) : base2Test c (2 * v.toInt) v = decide (c.deltaThr.toInt ≤ 0) := by
  rw [base2Test, decide_eq_decide, sext16, sext16]
  omega

/-- Settles O27: the sample is the baseline, whichever `BASE` selects. -/
theorem constantStreamReadsZero : Obligations.ConstantStreamReadsZero := by
  intro c k n v hp hk
  have hne : k.hist ≠ [] := by simp [hk]
  cases hb : c.baseMedian with
  | false => rw [classifyBit_adapt_mean v hp hb hne, hk, meanTest_replicate]
  | true => rw [classifyBit_adapt_median v hp hb hne, hk, median2_replicate, base2Test_double]

end Sys2Proof.Machine
end

section
/-! SUPPORT. The tone symbol (spec 40_classifier.md R123, R124). -/

namespace Sys2Proof.Machine

variable {c : Cfg} {f : Half}

/-- The first match in an ascending list is the least. -/
theorem find?_eq_some_iff_least {α : Type} [LT α] (hasymm : ∀ a b : α, a < b → ¬ b < a) {p : α → Bool} {a : α}
    {l : List α} (hl : l.Pairwise (· < ·)) :
    l.find? p = some a ↔ a ∈ l ∧ p a = true ∧ ∀ b ∈ l, b < a → p b = false := by
  rw [List.find?_eq_some_iff_append]
  constructor
  · rintro ⟨hp, before, after, rfl, hno⟩
    obtain ⟨_, hcons, _⟩ := List.pairwise_append.1 hl
    obtain ⟨hafter, _⟩ := List.pairwise_cons.1 hcons
    refine ⟨by simp, hp, fun b hb hlt => ?_⟩
    rcases List.mem_append.1 hb with hb | hb
    · simpa using hno b hb
    · rcases List.mem_cons.1 hb with rfl | hb
      · exact absurd hlt (hasymm b b hlt)
      · exact absurd hlt (hasymm a b (hafter b hb))
  · rintro ⟨ha, hp, hleast⟩
    obtain ⟨before, after, rfl⟩ := List.append_of_mem ha
    obtain ⟨_, _, hbefore⟩ := List.pairwise_append.1 hl
    refine ⟨hp, before, after, rfl, fun b hb => ?_⟩
    rw [hleast b (List.mem_append_left _ hb) (hbefore b hb a List.mem_cons_self), Bool.not_false]

theorem toneMatch_eq_true_iff {g : Half} : toneMatch c f g = true ↔ toneDistance f g ≤ c.toneTol.toNat :=
  decide_eq_true_iff

theorem toneMatch_eq_false_iff {g : Half} : toneMatch c f g = false ↔ c.toneTol.toNat < toneDistance f g :=
  decide_eq_false_iff_not.trans Nat.not_le

/-- The list that `toneSymbol` searches holds every symbol. -/
theorem mem_toneSymbols : ∀ k : BitVec 2, k ∈ [0#2, 1#2, 2#2, 3#2] := by decide

theorem toneSymbol_eq_some_iff {k : BitVec 2} : toneSymbol c f = some k ↔
    toneDistance f (c.toneF k) ≤ c.toneTol.toNat ∧ ∀ j, j < k → c.toneTol.toNat < toneDistance f (c.toneF j) := by
  rw [toneSymbol, find?_eq_some_iff_least (α := BitVec 2) (fun _ _ => Nat.lt_asymm) (by decide)]
  simp only [mem_toneSymbols, true_and, true_implies, toneMatch_eq_true_iff, toneMatch_eq_false_iff]

theorem toneSymbol_eq_none_iff :
    toneSymbol c f = none ↔ ∀ k, c.toneTol.toNat < toneDistance f (c.toneF k) := by
  rw [toneSymbol, List.find?_eq_none]
  simp only [mem_toneSymbols, true_implies, Bool.not_eq_true, toneMatch_eq_false_iff]

theorem toneDistance_triangle (f g h : Half) : toneDistance g h ≤ toneDistance f g + toneDistance f h := by
  unfold toneDistance
  omega

/-- Settles O28: the search finds the least match; two matches would be within twice the tolerance of each other. -/
theorem toneSymbolIsLeastMatch : Obligations.ToneSymbolIsLeastMatch := by
  intro c f
  refine ⟨fun _ => toneSymbol_eq_some_iff, toneSymbol_eq_none_iff, fun hfar k hk => ?_⟩
  refine toneSymbol_eq_some_iff.2 ⟨hk, fun j hj => ?_⟩
  have htri := toneDistance_triangle f (c.toneF j) (c.toneF k)
  have hjk := hfar j k (BitVec.ne_of_lt hj)
  omega

end Sys2Proof.Machine
end

section
/-! SUPPORT. `CALS`, and the glitch filter of `SAMPLE` (spec 40_classifier.md R111, R118, R119). -/

namespace Sys2Proof.Machine

variable {s : State} {d : Half}

theorem glitch_eq_true_iff {c : Cfg} {v : Half} : glitch c v = true ↔ v.toInt < c.glitch.toInt := decide_eq_true_iff

/-! One equation per case of `CALS`. -/

theorem exec_cals_refused (h : s.call.fsm.running = true ∨ s.cfg.policy ≠ .cal) :
    exec (.cals d) s = .next (raise .seq s) := by
  rcases h with hr | hp
  · exact if_pos hr
  · simp [exec, execCals, hp]

theorem exec_cals_glitch (hr : s.call.fsm.running = false) (hp : s.cfg.policy = .cal) (hg : glitch s.cfg d = true) :
    exec (.cals d) s = .next (countGlitch s) := by
  simp [exec, execCals, hr, hp, hg]

theorem exec_cals_calibrated (hr : s.call.fsm.running = false) (hp : s.cfg.policy = .cal)
    (hg : glitch s.cfg d = false) (hv : s.cls.calValid = true) : exec (.cals d) s = .next s := by
  simp [exec, execCals, hr, hp, hg, hv]

theorem exec_cals_uncalibrated (hr : s.call.fsm.running = false) (hp : s.cfg.policy = .cal)
    (hg : glitch s.cfg d = false) (hv : s.cls.calValid = false) : exec (.cals d) s = .next (calibrate d s) := by
  simp [exec, execCals, hr, hp, hg, hv]

theorem calibrate_of_partial (h : s.cls.hist.length + 1 ≠ s.cfg.calLen.toNat) :
    calibrate d s = s.withCls { s.cls with hist := s.cls.hist ++ [d] } := by
  simp [calibrate, zext16, h]

theorem calibrate_of_full (h : s.cls.hist.length + 1 = s.cfg.calLen.toNat) :
    calibrate d s = s.withCls
      { hist := s.cls.hist ++ [d], calValid := true
        calBase2 := BitVec.ofInt 17 (median2 (s.cls.hist ++ [d])) } := by
  simp [calibrate, zext16, h]

/-- Settles O21: the tests of R118 in their order; the doubled median fits `CAL_BASE2`. -/
theorem calsCalibrates : Obligations.CalsCalibrates := by
  intro s d
  refine ⟨exec_cals_refused, fun hr hp => ⟨fun hlow => exec_cals_glitch hr hp (glitch_eq_true_iff.2 hlow),
    fun hhigh => exec_cals_calibrated hr hp (glitch_eq_false_iff.2 hhigh), fun hhigh hv => ?_⟩⟩
  rw [exec_cals_uncalibrated hr hp (glitch_eq_false_iff.2 hhigh) hv]
  refine ⟨fun hpart => ?_, fun hfull => ⟨_, toInt_ofInt_median2 _, ?_⟩⟩
  · rw [calibrate_of_partial hpart]
    rfl
  · rw [calibrate_of_full hfull]
    rfl

/-! A glitch among the records of a call. -/

theorem exec_sample_of_running (hr : s.call.fsm.running = true) :
    exec (.sample d) s = .next (sampleRunning d s) := by
  have hi : s.call.fsm ≠ .idle := fun hf => by simp [hf, Fsm.running] at hr
  have ht : ¬ s.call.fsm.terminal = true := fun hf => by simp [Fsm.not_running_of_terminal hf] at hr
  rw [exec, execSample, if_neg hi, if_neg ht]

theorem sampleRunning_of_glitch (hm : s.cfg.sync ≠ .tone) (hg : glitch s.cfg d = true) :
    sampleRunning d s = posCheck (countGlitch (advancePos s)) := by
  rw [sampleRunning, if_neg hm, samplePower, advancePos_cfg, if_pos hg]

/-- Settles O40: both counters are of the per-call state, and `PosCheck` moves no datum. -/
theorem glitchIsDiscarded : Obligations.GlitchIsDiscarded := by
  intro s d hr hm hlow
  refine ⟨posCheck (countGlitch (advancePos s)), ?_, rfl, ?_⟩
  · rw [exec_sample_of_running hr, sampleRunning_of_glitch hm (glitch_eq_true_iff.2 hlow)]
  · simp

end Sys2Proof.Machine
end

section
/-! SUPPORT. `SAMPLE` and `SKIP` by the state of the call (spec 41_synchronizer.md R141, R170). -/

namespace Sys2Proof.Machine

variable {s : State} {d : Half}

theorem Fsm.ne_idle_of_terminal {f : Fsm} (h : f.terminal = true) : f ≠ .idle := by
  rintro rfl
  cases h

theorem Fsm.ne_idle_of_running {f : Fsm} (h : f.running = true) : f ≠ .idle := by
  rintro rfl
  cases h

theorem Fsm.not_terminal_of_running {f : Fsm} (h : f.running = true) : ¬ f.terminal = true := fun ht => by
  simp [Fsm.not_running_of_terminal ht] at h

theorem exec_sample_of_idle (h : s.call.fsm = .idle) : exec (.sample d) s = .next (raise .seq s) := if_pos h

theorem exec_sample_of_terminal (h : s.call.fsm.terminal = true) : exec (.sample d) s = .next s := by
  rw [exec, execSample, if_neg (Fsm.ne_idle_of_terminal h), if_pos h]

theorem exec_skip_of_idle (h : s.call.fsm = .idle) : exec .skip s = .next (raise .seq s) := if_pos h

theorem exec_skip_of_terminal (h : s.call.fsm.terminal = true) : exec .skip s = .next s := by
  rw [exec, execSkip, if_neg (Fsm.ne_idle_of_terminal h), if_pos h]

theorem exec_skip_of_running (h : s.call.fsm.running = true) :
    exec .skip s = .next (posCheck (countSkip (advancePos s))) := by
  rw [exec, execSkip, if_neg (Fsm.ne_idle_of_running h), if_neg (Fsm.not_terminal_of_running h)]

/-- Settles O36: the two gates of R141, the same for both commands. -/
theorem recordsGatedByState : Obligations.RecordsGatedByState := fun _ =>
  ⟨fun hi => ⟨fun _ => exec_sample_of_idle hi, exec_skip_of_idle hi⟩,
    fun ht => ⟨fun _ => exec_sample_of_terminal ht, exec_skip_of_terminal ht⟩⟩

/-- Settles O37: the gates of R141, and the three operations of R170. -/
theorem skipConsumesIndex : Obligations.SkipConsumesIndex := fun _ =>
  ⟨exec_skip_of_idle, exec_skip_of_terminal, exec_skip_of_running⟩

end Sys2Proof.Machine
end

section
/-! SUPPORT. `PosCheck` and the presence test, an equation for each case (spec 41_synchronizer.md R152, R154, R171,
42_reassembler.md R185). -/

namespace Sys2Proof.Machine

variable {s : State}

theorem enterPayload_of_empty (hm : s.cfg.sync ≠ .tone) (hl : s.cfg.payloadLen = 0) : enterPayload s =
    s.withCall { s.call with
      syncPos := s.call.pos, syncBit := s.call.bitcnt, left := s.call.bitn, fsm := .done } := if_pos ⟨hm, hl⟩

theorem enterPayload_of_reading (h : s.cfg.sync = .tone ∨ s.cfg.payloadLen ≠ 0) : enterPayload s =
    s.withCall { s.call with syncPos := s.call.pos, syncBit := s.call.bitcnt, fsm := .payload } :=
  if_neg fun ⟨hm, hl⟩ => h.elim hm fun hne => hne hl

theorem payloadCheck_of_not_payload (hf : s.call.fsm ≠ .payload) : payloadCheck s = s := if_neg fun h => hf h.1

theorem windowCheck_of_not_search (hf : s.call.fsm ≠ .search) : windowCheck s = s := if_neg fun h => hf h.1

theorem posCheck_of_not_running (hr : s.call.fsm.running = false) : posCheck s = s := by
  have hs : s.call.fsm ≠ .search := Fsm.ne_search_of_not_running hr
  have hp : s.call.fsm ≠ .payload := fun h => by simp [h, Fsm.running] at hr
  rw [posCheck, windowCheck_of_not_search hs, payloadCheck_of_not_payload hp, ite_self]

/-! `SEARCH`: nothing before the window has passed, then `Decide`. -/

theorem posCheck_search_of_early (hf : s.call.fsm = .search) (hp : s.call.pos.toNat ≠ s.cfg.payloadStart) :
    posCheck s = s := by
  have hw : windowCheck s = s := if_neg fun h => hp h.2
  rw [posCheck, hw, payloadCheck_of_not_payload (by simp [hf]), ite_self]

theorem posCheck_search_of_due (hm : s.cfg.sync = .pos) (hf : s.call.fsm = .search)
    (hp : s.call.pos.toNat = s.cfg.payloadStart) : posCheck s = payloadCheck (decidePresence s) := by
  rw [posCheck, if_pos hm, windowCheck, if_pos ⟨hf, hp⟩]

theorem posCheck_search_of_absent (hm : s.cfg.sync = .pos) (hf : s.call.fsm = .search)
    (hp : s.call.pos.toNat = s.cfg.payloadStart) (ha : present s = false) : posCheck s = finalize .silence s := by
  rw [posCheck_search_of_due hm hf hp, decidePresence, if_neg (by simp [ha])]
  exact payloadCheck_of_not_payload (by simp)

/-- At `S` a payload that has any length has not passed yet, so the second test of R171 ends nothing. -/
theorem posCheck_search_of_present (hm : s.cfg.sync = .pos) (hf : s.call.fsm = .search)
    (hp : s.call.pos.toNat = s.cfg.payloadStart) (ha : present s = true) : posCheck s = enterPayload s := by
  rw [posCheck_search_of_due hm hf hp, decidePresence, if_pos ha]
  by_cases hl : s.cfg.payloadLen = 0
  · exact payloadCheck_of_not_payload (by simp [enterPayload_of_empty, hm, hl])
  · refine if_neg fun ⟨_, hend⟩ => hl ?_
    rw [enterPayload_call_pos, enterPayload_cfg] at hend
    omega

/-! `PAYLOAD`: the end at `S + L`. -/

theorem posCheck_payload_of_early (hf : s.call.fsm = .payload)
    (hp : s.call.pos.toNat ≠ s.cfg.payloadStart + s.cfg.payloadLen) : posCheck s = s := by
  have hw : payloadCheck s = s := if_neg fun h => hp h.2
  rw [posCheck, windowCheck_of_not_search (by simp [hf]), hw, ite_self]

theorem posCheck_payload_of_due (hm : s.cfg.sync = .pos) (hf : s.call.fsm = .payload)
    (hp : s.call.pos.toNat = s.cfg.payloadStart + s.cfg.payloadLen) : posCheck s = finalize .done s := by
  rw [posCheck, if_pos hm, windowCheck_of_not_search (by simp [hf]), payloadCheck, if_pos ⟨hf, hp⟩]

/-- Settles O35: one equation for each case, the entry into a payload by its length. -/
theorem posCheckDecides : Obligations.PosCheckDecides := by
  intro s
  refine ⟨posCheck_of_not_pos, fun hm hf => ⟨posCheck_search_of_early hf, posCheck_search_of_absent hm hf,
    fun hp ha => ?_⟩, fun hm hf => ⟨posCheck_payload_of_early hf, posCheck_payload_of_due hm hf⟩,
    posCheck_of_not_running⟩
  rw [posCheck_search_of_present hm hf hp ha]
  by_cases hl : s.cfg.payloadLen = 0
  · rw [enterPayload_of_empty (by simp [hm]) hl, if_pos hl, if_pos hl]
    rfl
  · rw [enterPayload_of_reading (.inr hl), if_neg hl, if_neg hl]
    rfl

/-- Settles O34: multiplied by the positive count, the average of R152 is the model's integer comparison. -/
theorem presenceTestIsTheAverage : Obligations.PresenceTestIsTheAverage := by
  intro s
  have hne : s.call.wcnt ≠ 0 ↔ 0 < s.call.wcnt.toNat := by
    rw [Nat.pos_iff_ne_zero, Ne, Ne, ← BitVec.toNat_inj]
    rfl
  rw [present, Bool.and_eq_true, decide_eq_true_iff, decide_eq_true_iff, hne]
  refine and_congr_right fun hpos => ?_
  rw [lt_div_iff₀ (Nat.cast_pos.2 hpos), mul_comm (s.cfg.markThr.toInt : ℚ)]
  exact_mod_cast Iff.rfl

end Sys2Proof.Machine
end

section
/-! SUPPORT. The reassembler's bits as a list, and the records of tone mode (spec 41_synchronizer.md R165 to R167,
42_reassembler.md R181 to R183). -/

namespace Sys2Proof.Machine

variable {s : State} {f : Half}

/-- The low bits of a register, the highest first, after one more bit came in at the low end. -/
theorem map_getLsbD_shiftIn {w : Nat} (a : BitVec w) (b : Bool) {n : Nat} (hn : n < w) :
    (List.range (n + 1)).map (fun j => (shiftIn a b).getLsbD (n - j)) =
      (List.range n).map (fun j => a.getLsbD (n - 1 - j)) ++ [b] := by
  rw [List.range_succ, List.map_append, List.map_singleton, Nat.sub_self, getLsbD_shiftIn _ _ _ (by omega), if_pos rfl]
  congr 1
  refine List.map_congr_left fun j hj => ?_
  have hlt := List.mem_range.1 hj
  rw [getLsbD_shiftIn _ _ _ (by omega), if_neg (by omega), Nat.sub_right_comm]

/-- A byte's bits are its eight low bits, the highest first (30_encoding.md R99). -/
theorem byteBits_eq_map (x : Byte) : byteBits x = (List.range 8).map fun j => x.getLsbD (7 - j) := rfl

/-- While a completed byte finds room in `MSG`, the reassembler's bits grow by each payload bit (R181 to R183). -/
theorem emitBit_payload_assembled (b : Bool) (hf : s.call.fsm = .payload)
    (hroom : s.call.bitn.toNat + 1 = 8 → s.mem.msg.length < s.params.msgCap) :
    (emitBit b s).assembled = s.assembled ++ [b] := by
  rw [State.assembled, State.assembled, Call.accBits, Call.accBits, emitBit_payload_msg s b hf,
    emitBit_payload_bitn s b hf, emitBit_payload_acc s b hf]
  by_cases hn : s.call.bitn.toNat + 1 = 8
  · have hseven : s.call.bitn.toNat = 7 := by omega
    rw [if_pos ⟨hn, hroom hn⟩, if_pos hn, if_pos hn, List.flatMap_append, List.flatMap_singleton, byteBits_eq_map,
      map_getLsbD_shiftIn s.call.acc b (by omega), hseven]
    simp
  · have hlt := s.call.bitn.isLt
    rw [if_neg fun h => hn h.1, if_neg hn, if_neg hn, List.append_assoc, ← map_getLsbD_shiftIn s.call.acc b (by omega)]
    rfl

theorem emitBit_fsm_of_not_pat (b : Bool) (hm : s.cfg.sync ≠ .pat) (hf : s.call.fsm = .payload) :
    (emitBit b s).call.fsm = .payload := by
  rw [emitBit_payload_fsm s b hf, if_neg fun h => hm h.1]

/-! Two bits of one tone symbol (30_encoding.md R98). -/

theorem emitBit_emitBit_raw (a b : Bool) (hroom : s.mem.raw.length + 2 ≤ s.params.rawCap) :
    (emitBit b (emitBit a s)).mem.raw = s.mem.raw ++ [a, b] := by
  have ha : (emitBit a s).mem.raw = s.mem.raw ++ [a] := by rw [emitBit_mem_raw, if_pos (by omega)]
  have hlen : (s.mem.raw ++ [a]).length < s.params.rawCap := by
    rw [List.length_append, List.length_singleton]
    omega
  rw [emitBit_mem_raw, ha, emitBit_params, if_pos hlen, List.append_assoc]
  rfl

/-- If the first of two bits completes a byte, the second begins the next, which asks for no room yet (R182). -/
theorem emitBit_emitBit_assembled (a b : Bool) (hm : s.cfg.sync ≠ .pat) (hf : s.call.fsm = .payload)
    (hroom : s.mem.msg.length < s.params.msgCap) :
    (emitBit b (emitBit a s)).assembled = s.assembled ++ [a, b] := by
  have hnext : (emitBit a s).call.bitn.toNat + 1 = 8 →
      (emitBit a s).mem.msg.length < (emitBit a s).params.msgCap := by
    intro hn
    have hpart : s.call.bitn.toNat + 1 ≠ 8 := fun hfull => by simp [emitBit_payload_bitn s a hf, hfull] at hn
    rwa [emitBit_msg_of_partial a hpart, emitBit_params]
  rw [emitBit_payload_assembled b (emitBit_fsm_of_not_pat a hm hf) hnext,
    emitBit_payload_assembled a hf fun _ => hroom, List.append_assoc]
  rfl

/-! One equation for each case of a tone record. -/

theorem exec_sample_of_tone (hr : s.call.fsm.running = true) (hm : s.cfg.sync = .tone) :
    exec (.sample f) s = .next (sampleTone f (advancePos s)) := by
  rw [exec_sample_of_running hr, sampleRunning, if_pos hm]

theorem sampleTone_of_handshake (hf : s.call.fsm = .search) (h : toneMatch s.cfg f s.cfg.toneHs = true) :
    sampleTone f s = enterPayload s := by
  rw [sampleTone, if_pos hf, if_pos h]

theorem sampleTone_of_other (hf : s.call.fsm = .search) (h : toneMatch s.cfg f s.cfg.toneHs = false) :
    sampleTone f s = s := by
  rw [sampleTone, if_pos hf, h, if_neg Bool.false_ne_true]

theorem sampleTone_of_unmatched (hf : s.call.fsm = .payload) (h : toneSymbol s.cfg f = none) :
    sampleTone f s = countDrop s := by
  rw [sampleTone, if_neg (by simp [hf]), h]

theorem sampleTone_of_symbol {k : BitVec 2} (hf : s.call.fsm = .payload) (h : toneSymbol s.cfg f = some k) :
    sampleTone f s = emitBit (k.getLsbD 0) (emitBit (k.getLsbD 1) s) := by
  rw [sampleTone, if_neg (by simp [hf]), h]

/-- Settles O38: the handshake test is `toneDistance` against the tolerance, and tone mode reads a payload of any length. -/
theorem toneHandshakeSyncs : Obligations.ToneHandshakeSyncs := by
  intro s f hf hm
  have hx : exec (.sample f) s = .next (sampleTone f (advancePos s)) := exec_sample_of_tone (by rw [hf]; rfl) hm
  refine ⟨bump32 s.call.pos, bump32_toNat _, fun hnear => ?_, fun hfar => ?_⟩
  · rw [hx, sampleTone_of_handshake (s := advancePos s) hf (toneMatch_eq_true_iff.2 hnear),
      enterPayload_of_reading (s := advancePos s) (.inl hm)]
    rfl
  · rw [hx, sampleTone_of_other (s := advancePos s) hf (toneMatch_eq_false_iff.2 hfar)]
    rfl

/-- Settles O39: the two bits one after the other; tone mode ends no call at a bit. -/
theorem toneSymbolEmitsTwoBits : Obligations.ToneSymbolEmitsTwoBits := by
  intro s f hf hm
  have hx : exec (.sample f) s = .next (sampleTone f (advancePos s)) := exec_sample_of_tone (by rw [hf]; rfl) hm
  have hpat : (advancePos s).cfg.sync ≠ .pat := by simp [hm]
  refine ⟨bump32 s.call.pos, bump32_toNat _, fun hnone => ?_, fun k hk => ?_⟩
  · rw [hx, sampleTone_of_unmatched (s := advancePos s) hf hnone]
    rfl
  · have hfirst : (emitBit (k.getLsbD 1) (advancePos s)).call.fsm = .payload := emitBit_fsm_of_not_pat _ hpat hf
    refine ⟨emitBit (k.getLsbD 0) (emitBit (k.getLsbD 1) (advancePos s)), ?_, rfl,
      emitBit_fsm_of_not_pat _ (by rwa [emitBit_cfg]) hfirst, by simp,
      emitBit_emitBit_raw (s := advancePos s) _ _, emitBit_emitBit_assembled (s := advancePos s) _ _ hpat hf⟩
    rw [hx, sampleTone_of_symbol (s := advancePos s) hf hk]

end Sys2Proof.Machine
end

section
/-! SUPPORT. A classified sample, by the mode and the state of the call (spec 41_synchronizer.md R140, R145, R146, R151,
R153, 10_state.md R24). -/

namespace Sys2Proof.Machine

variable {s : State} {d : Half}

theorem classifyAndEmit_of_none {v : Half} (hb : classifyBit s.cfg s.cls v = none) :
    classifyAndEmit v s = classifyUpdate v s := by
  rw [classifyAndEmit, hb]

theorem classifyAndEmit_of_some {v : Half} {b : Bool} (he : s.cfg.sync = .pat ∨ s.call.fsm = .payload)
    (hb : classifyBit s.cfg s.cls v = some b) : classifyAndEmit v s = emitBit b (classifyUpdate v s) := by
  simp only [classifyAndEmit, hb, if_pos he]

/-- Where R145 does not use the bit, `Classify` has its effect alone. -/
theorem classifyAndEmit_of_unused (v : Half) (hm : s.cfg.sync ≠ .pat) (hf : s.call.fsm ≠ .payload) :
    classifyAndEmit v s = classifyUpdate v s :=
  (classifyAndEmit_cases v s).resolve_right fun ⟨he, _⟩ => he.elim hm hf

/-- The error that `Classify` raises: none but `NOCAL`, under CAL without a baseline (40_classifier.md R121). -/
theorem classifyUpdate_err (v : Half) (s : State) : (classifyUpdate v s).err =
    if s.cfg.policy = .cal ∧ s.cls.calValid = false then s.err ||| ErrBit.noCal.mask else s.err := by
  cases hp : s.cfg.policy with
  | fixed => simp [classifyUpdate_fixed v hp]
  | adapt =>
    by_cases hk : s.cls.hist = []
    · simp [classifyUpdate_adapt_nil v hp hk]
    · simp [classifyUpdate_adapt v hp hk]
  | cal =>
    cases hk : s.cls.calValid with
    | false => simp [classifyUpdate_uncalibrated v hp hk]
    | true => simp [classifyUpdate_calibrated v hp hk]
  | reserved => simp [classifyUpdate, hp]

/-- A classified sample is accumulated if R151 says so, classified, and followed by `PosCheck` (R140). -/
theorem exec_sample_of_classified (h : Classified d s) : exec (.sample d) s =
    .next (posCheck (classifyAndEmit d (windowSample s.call.pos.toNat d (advancePos s)))) := by
  obtain ⟨hr, hm, hg⟩ := h
  have hn : glitch s.cfg d = false := glitch_eq_false_iff.2 hg
  rw [exec_sample_of_running hr, sampleRunning, if_neg hm, samplePower, advancePos_cfg, hn]
  rfl

/-! Outside positional `SEARCH`, where nothing is accumulated. -/

theorem exec_sample_of_not_accumulated (h : Classified d s) (hw : s.cfg.sync ≠ .pos ∨ s.call.fsm ≠ .search) :
    exec (.sample d) s = .next (posCheck (classifyAndEmit d (advancePos s))) := by
  have hsame : windowSample s.call.pos.toNat d (advancePos s) = advancePos s :=
    if_neg fun ⟨hm, hf, _⟩ => hw.elim (· hm) (· hf)
  rw [exec_sample_of_classified h, hsame]

/-- Settles O42: in `PAYLOAD` nothing is accumulated, and the bit is used. -/
theorem positionalPayloadEmits : Obligations.PositionalPayloadEmits := by
  intro s d hd _ hf
  refine ⟨classifyUpdate d (advancePos s), rfl, fun b hb => ?_, fun hb => ?_⟩ <;>
    rw [exec_sample_of_not_accumulated hd (.inr (by simp [hf]))]
  · rw [classifyAndEmit_of_some (s := advancePos s) (.inr hf) hb]
  · rw [classifyAndEmit_of_none (s := advancePos s) hb]

/-- Settles O43: pattern mode neither accumulates nor looks at the index, and uses every bit. -/
theorem patternModeEmitsEveryBit : Obligations.PatternModeEmitsEveryBit := by
  intro s d hd hm
  have hpos : s.cfg.sync ≠ .pos := by simp [hm]
  refine ⟨classifyUpdate d (advancePos s), rfl, fun b hb => ?_, fun hb => ?_⟩ <;>
    rw [exec_sample_of_not_accumulated hd (.inl hpos), posCheck_of_not_pos (by simpa using hpos)]
  · rw [classifyAndEmit_of_some (s := advancePos s) (.inl hm) hb]
  · rw [classifyAndEmit_of_none (s := advancePos s) hb]

/-! The preamble window. -/

theorem Cfg.inWindow_iff {c : Cfg} {p : Nat} :
    c.inWindow p = true ↔ c.preStart.toNat ≤ p ∧ p < c.preStart.toNat + c.preLen.toNat := by
  rw [Cfg.inWindow, Bool.and_eq_true, decide_eq_true_iff, decide_eq_true_iff]
  rfl

theorem windowSample_of_inside {p : Nat} (v : Half) (hm : s.cfg.sync = .pos) (hf : s.call.fsm = .search)
    (hin : s.cfg.preStart.toNat ≤ p ∧ p < s.cfg.preStart.toNat + s.cfg.preLen.toNat) :
    windowSample p v s = accumulate v s :=
  if_pos ⟨hm, hf, Cfg.inWindow_iff.2 hin⟩

theorem windowSample_of_outside {p : Nat} (v : Half)
    (hout : ¬ (s.cfg.preStart.toNat ≤ p ∧ p < s.cfg.preStart.toNat + s.cfg.preLen.toNat)) :
    windowSample p v s = s :=
  if_neg fun ⟨_, _, hin⟩ => hout (Cfg.inWindow_iff.1 hin)

/-- In positional `SEARCH` the index alone decides whether a sample is added (R151). -/
theorem windowSample_of_pos_search (p : Nat) (v : Half) (hm : s.cfg.sync = .pos) (hf : s.call.fsm = .search) :
    windowSample p v s = s.withCall { s.call with
      wsum :=
        if s.cfg.preStart.toNat ≤ p ∧ p < s.cfg.preStart.toNat + s.cfg.preLen.toNat then
          BitVec.ofInt 32 (s.call.wsum.toInt + v.toInt)
        else s.call.wsum
      wcnt :=
        if s.cfg.preStart.toNat ≤ p ∧ p < s.cfg.preStart.toNat + s.cfg.preLen.toNat then
          BitVec.ofNat 16 (s.call.wcnt.toNat + 1)
        else s.call.wcnt } := by
  by_cases hin : s.cfg.preStart.toNat ≤ p ∧ p < s.cfg.preStart.toNat + s.cfg.preLen.toNat
  · rw [windowSample_of_inside v hm hf hin, if_pos hin, if_pos hin]
    rfl
  · rw [windowSample_of_outside v hin, if_neg hin, if_neg hin]
    rfl

/-- Within the bounds of R24 the sum and the count of one more sample of the window are exact. -/
theorem windowSample_exact (v : Half) (hm : s.cfg.sync = .pos) (hf : s.call.fsm = .search) (h : WindowOk s)
    (hlo : s.cfg.preStart.toNat ≤ s.call.pos.toNat) :
    (windowSample s.call.pos.toNat v (advancePos s)).call.wsum.toInt = s.call.wsum.toInt + v.toInt ∧
    (windowSample s.call.pos.toNat v (advancePos s)).call.wcnt.toNat = s.call.wcnt.toNat + 1 := by
  obtain ⟨hw, _⟩ := h (by rw [hf]; rfl)
  obtain ⟨hseen, _, hmin, hmax, hsearch, _⟩ := hw hm
  have hlt : s.call.pos.toNat < s.cfg.preStart.toNat + s.cfg.preLen.toNat := hsearch hf
  have hlen := s.cfg.preLen.isLt
  have hvmin := v.le_toInt
  have hvmax := v.toInt_lt
  rw [zext16] at hseen
  rw [windowSample_of_inside (s := advancePos s) v hm hf ⟨hlo, hlt⟩]
  refine ⟨BitVec.toInt_ofInt_eq_self (by decide) ?_ ?_, (BitVec.toNat_ofNat _ _).trans (Nat.mod_eq_of_lt ?_)⟩ <;>
    simp only [advancePos_call, sext16] <;> omega

/-- Settles O41: the sample is added before `Classify` and `PosCheck`, and these leave the accumulator alone. -/
theorem preambleWindowAccumulates : Obligations.PreambleWindowAccumulates := by
  intro s d hd hm hf
  refine ⟨windowSample s.call.pos.toNat d (advancePos s), _,
    windowSample_of_pos_search (s := advancePos s) _ _ hm hf, rfl, ?_, by simp, by simp, by simp, by simp, by simp,
    by simp [classifyUpdate_cls], by simp [classifyUpdate_err], fun hw => ⟨?_, fun hlo => ?_⟩⟩
  · rw [exec_sample_of_classified hd, classifyAndEmit_of_unused _ (by simp [hm]) (by simp [hf])]
  · obtain ⟨hwin, _⟩ := hw hd.1
    obtain ⟨_, _, _, _, hsearch, _⟩ := hwin hm
    simpa using bump32_pos_of_lt_payloadEnd (Nat.lt_add_right s.cfg.payloadLen (hsearch hf))
  · simpa using windowSample_exact d hm hf hw hlo

end Sys2Proof.Machine
end

section
/-! SUPPORT. What a `SAMPLE` leaves alone (spec 41_synchronizer.md R140, 40_classifier.md R110, R121). -/

namespace Sys2Proof.Machine

variable {s t x : State} {d : Half}

/-- `EmitBit`, `EnterPayload`, `PosCheck` and the counters of a `SAMPLE` touch no flag of the end of a call and no count of
skips. -/
theorem SampleEffect.endFlags (h : SampleEffect d s x) :
    x.call.nopre = s.call.nopre ∧ x.call.short = s.call.short ∧ x.call.skipCnt = s.call.skipCnt := by
  cases h <;> simp

/-- No `SAMPLE` fixes or loses a baseline (40_classifier.md R116, R120). -/
theorem SampleEffect.calibration (h : SampleEffect d s x) :
    x.cls.calValid = s.cls.calValid ∧ x.cls.calBase2 = s.cls.calBase2 := by
  rw [h.cls]
  split <;> exact ⟨rfl, rfl⟩

/-- Only a classified sample under CAL without a baseline raises an error (40_classifier.md R121). -/
theorem SampleEffect.err (h : SampleEffect d s x) : x.err =
    if s.cfg.sync ≠ .tone ∧ glitch s.cfg d = false ∧ s.cfg.policy = .cal ∧ s.cls.calValid = false then
      s.err ||| ErrBit.noCal.mask
    else s.err := by
  cases h with
  | handshake hm _ => simp [hm]
  | otherTone hm _ => simp [hm]
  | drop hm _ => simp [hm]
  | symbol k hm _ => simp [hm]
  | glitched _ hg => simp [hg]
  | noBit hm hg => simp [classifyUpdate_err, hm, hg]
  | bit b hm hg _ => simp [classifyUpdate_err, hm, hg]

/-- Settles O45: a record that the gates of R141 let pass does one of the effects of R140, and none of them touches more. -/
theorem sampleFrame : Obligations.SampleFrame := by
  intro s t d hi h
  rcases execSample_cases h with ⟨hf, _⟩ | ⟨_, rfl⟩ | ⟨_, rfl⟩
  · exact absurd hf hi
  · exact ⟨rfl, rfl, rfl, rfl, rfl, rfl, rfl, rfl, rfl, .inl rfl⟩
  · have hx := sampleRunning_effect d s
    obtain ⟨hnopre, hshort, hskip⟩ := hx.endFlags
    obtain ⟨hvalid, hbase⟩ := hx.calibration
    refine ⟨by simp, by simp, by simp, by simp, hnopre, hshort, hskip, hvalid, hbase, ?_⟩
    rw [hx.err]
    split
    next hc =>
      obtain ⟨hm, _, hp, hv⟩ := hc
      exact .inr ⟨rfl, hm, hp, hv⟩
    next => exact .inl rfl

end Sys2Proof.Machine
end

section
/-! SUPPORT. The pattern matcher against the end of `RAW` (spec 41_synchronizer.md R160, R161, 10_state.md R32). -/

namespace Sys2Proof.Machine

variable {s : State}

theorem getLsbD_patMask (c : Cfg) {j : Nat} (hj : j < 16) :
    (patMask c).getLsbD j = decide (j < c.patLen.toNat) := by
  rw [patMask, BitVec.getLsbD_ofNat, Nat.testBit_two_pow_sub_one, decide_eq_true hj, Bool.true_and]
  rfl

/-- Under the mask of R181 two registers agree exactly when their low `PAT_LEN` bits do. -/
theorem and_patMask_eq_iff (c : Cfg) (hn : c.patLen.toNat ≤ 16) (a b : BitVec 16) :
    a &&& patMask c = b &&& patMask c ↔ ∀ j < c.patLen.toNat, a.getLsbD j = b.getLsbD j := by
  constructor
  · intro h j hj
    have hbit := congrArg (·.getLsbD j) h
    simpa [getLsbD_patMask c (hj.trans_le hn), hj] using hbit
  · intro h
    refine BitVec.eq_of_getLsbD_eq fun j hj => ?_
    rw [BitVec.getLsbD_and, BitVec.getLsbD_and, getLsbD_patMask c hj]
    by_cases hlt : j < c.patLen.toNat
    · rw [h j hlt]
    · simp [hlt]

/-- The matcher's condition of R160, bit by bit. -/
theorem patternMatch_iff (hn : s.cfg.patLen.toNat ≤ 16) : patternMatch s = true ↔
    s.cfg.patLen.toNat ≤ s.call.bitcnt.toNat ∧
      ∀ j < s.cfg.patLen.toNat, s.call.sr.getLsbD j = s.cfg.pat.getLsbD j := by
  rw [patternMatch, Bool.and_eq_true, decide_eq_true_iff, decide_eq_true_iff, and_patMask_eq_iff s.cfg hn]
  rfl

/-- A list ends in another exactly when, read from the end, it begins with the other's elements. -/
theorem isSuffix_iff_reverse_getD {α : Type} (a : α) {l l' : List α} :
    l <:+ l' ↔ l.length ≤ l'.length ∧ ∀ j < l.length, l'.reverse.getD j a = l.reverse.getD j a := by
  have hget : ∀ {x : List α} {j : Nat} (hj : j < x.reverse.length), x.reverse.getD j a = x.reverse[j] := fun hj =>
    List.getD_eq_getElem _ _ hj
  rw [← List.reverse_prefix, List.prefix_iff_getElem, ← List.length_reverse (as := l), ← List.length_reverse (as := l')]
  constructor
  · rintro ⟨hle, h⟩
    exact ⟨hle, fun j hj => by rw [hget (hj.trans_le hle), hget hj, h j hj]⟩
  · rintro ⟨hle, h⟩
    exact ⟨hle, fun j hj => by rw [← hget hj, ← hget (hj.trans_le hle), h j hj]⟩

/-- Read from its end, the pattern of R32 is `PAT` from bit 0 up. -/
theorem getD_reverse_patternBits (c : Cfg) {j : Nat} (hj : j < c.patLen.toNat) :
    (patternBits c).reverse.getD j false = c.pat.getLsbD j := by
  have hj' : j < (patternBits c).reverse.length := by simpa [patternBits, zext16] using hj
  have hback : c.patLen.toNat - 1 - (c.patLen.toNat - 1 - j) = j := by omega
  rw [List.getD_eq_getElem _ _ hj', List.getElem_reverse]
  simp [patternBits, zext16, hback]

/-- Settles O32: bit `j` of the register, of the pattern and of the end of `RAW` are compared at the same `j`. -/
theorem patternMatchIsSuffixMatch : Obligations.PatternMatchIsSuffixMatch := by
  intro s hn hlen hsr
  have hpat : (patternBits s.cfg).length = s.cfg.patLen.toNat := by simp [patternBits, zext16]
  change _ ↔ patternBits s.cfg <:+ s.mem.raw
  rw [patternMatch_iff hn, isSuffix_iff_reverse_getD false, hpat, hlen]
  refine and_congr_right fun _ => forall₂_congr fun j hj => ?_
  rw [hsr j (hj.trans_le hn), getD_reverse_patternBits s.cfg hj]

end Sys2Proof.Machine
end

section
/-! SUPPORT. One bit through the reassembler and through the matcher, as an equation for the whole state (spec
42_reassembler.md R181 to R185, 41_synchronizer.md R160, R162). -/

namespace Sys2Proof.Machine

variable {s : State}

/-! Entering the payload (R185). -/

theorem Cfg.payloadLen_eq_zero_iff {c : Cfg} : c.payloadLen = 0 ↔ c.payLen = 0 ∨ c.capBits = 0 := by
  rw [Cfg.payloadLen, zext16, zext16, Nat.min_eq_zero_iff, ← BitVec.toNat_inj, ← BitVec.toNat_inj]
  rfl

/-- Settles O29: `L` is 0 exactly if one of the two lengths that bound it is. -/
theorem enterPayloadRecordsSync : Obligations.EnterPayloadRecordsSync := by
  refine fun s => ⟨fun hm hz => ?_, fun h => ?_⟩
  · rw [enterPayload_of_empty hm (Cfg.payloadLen_eq_zero_iff.2 hz)]
    rfl
  · rw [enterPayload_of_reading (h.imp_right fun hne hz => ?_)]
    · rfl
    · exact (Cfg.payloadLen_eq_zero_iff.1 hz).elim hne.1 hne.2

/-! The parts of `EmitBit`, each on the whole per-call state or the whole of the buffers. -/

/-- `((a << 1) | b)` of R181 as a number, at the width of the register. -/
theorem shiftIn_eq_ofNat {n : Nat} (a : BitVec n) (b : Bool) :
    shiftIn a b = BitVec.ofNat n ((2 * a.toNat + b.toNat) % 2 ^ n) := by
  have hconcat : shiftIn a b = (a.concat b).setWidth n := by
    refine BitVec.eq_of_getLsbD_eq fun i hi => ?_
    rw [getLsbD_shiftIn a b i hi, BitVec.getLsbD_setWidth, BitVec.getLsbD_concat, decide_eq_true hi, Bool.true_and]
  refine BitVec.eq_of_toNat_eq ?_
  rw [hconcat, BitVec.toNat_setWidth, BitVec.toNat_concat, BitVec.toNat_ofNat, Nat.mod_mod, Nat.mul_comm]

theorem bitn_eq_seven_iff {n : BitVec 3} : n = 7 ↔ n.toNat + 1 = 8 := by
  rw [← BitVec.toNat_inj]
  exact ⟨fun h => congrArg (· + 1) h, fun h => Nat.succ.inj h⟩

theorem storeRawBit_mem_fields (b : Bool) (s : State) : (storeRawBit b s).mem =
    { msg := s.mem.msg
      raw := if s.mem.raw.length < s.params.rawCap then s.mem.raw ++ [b] else s.mem.raw } := by
  rw [storeRawBit_mem]
  split <;> rfl

theorem assembleBit_call (b : Bool) (s : State) : (assembleBit b s).call =
    { s.call with
      acc := if s.call.bitn = 7 then 0 else shiftIn s.call.acc b
      bitn := s.call.bitn + 1
      msgovf := s.call.msgovf || decide (s.call.bitn = 7 ∧ s.params.msgCap ≤ s.mem.msg.length) } := by
  by_cases hn : s.call.bitn = 7
  · rw [(assembleBit_complete s b (bitn_eq_seven_iff.1 hn)).1]
    simp [hn, ← decide_not]
  · rw [assembleBit_partial s b (mt bitn_eq_seven_iff.2 hn)]
    simp only [State.withCall_call, hn, if_false, false_and, decide_false, Bool.or_false]

theorem assembleBit_mem (b : Bool) (s : State) : (assembleBit b s).mem =
    { msg :=
        if s.call.bitn = 7 ∧ s.mem.msg.length < s.params.msgCap then s.mem.msg ++ [shiftIn s.call.acc b]
        else s.mem.msg
      raw := s.mem.raw } := by
  simp only [bitn_eq_seven_iff, ← assembleBit_msg]
  rw [← assembleBit_mem_raw s b]

/-- The call after a payload bit is that after assembling it, or its end. -/
theorem payloadBit_call (b : Bool) (s : State) : (payloadBit b s).call =
    if s.cfg.sync = .pat ∧ s.call.bitcnt.toNat = s.call.syncBit.toNat + s.cfg.payloadLen then
      { (assembleBit b s).call with left := (assembleBit b s).call.bitn, fsm := .done }
    else (assembleBit b s).call := by
  unfold payloadBit
  dsimp only
  split <;> rfl

theorem emitBit_payload_call (b : Bool) (hf : s.call.fsm = .payload) : (emitBit b s).call =
    { s.call with
      bitcnt := bump32 s.call.bitcnt
      rawovf := s.call.rawovf || decide (s.params.rawCap ≤ s.mem.raw.length)
      acc := if s.call.bitn = 7 then 0 else shiftIn s.call.acc b
      bitn := s.call.bitn + 1
      msgovf := s.call.msgovf || decide (s.call.bitn = 7 ∧ s.params.msgCap ≤ s.mem.msg.length)
      fsm :=
        if s.cfg.sync = .pat ∧ (bump32 s.call.bitcnt).toNat = s.call.syncBit.toNat + s.cfg.payloadLen then .done
        else .payload
      left :=
        if s.cfg.sync = .pat ∧ (bump32 s.call.bitcnt).toNat = s.call.syncBit.toNat + s.cfg.payloadLen then
          s.call.bitn + 1
        else s.call.left } := by
  simp only [emitBit_payload s b hf, payloadBit_call, assembleBit_call, storeRawBit_call, storeRawBit_cfg,
    storeRawBit_params, storeRawBit_mem_msg, ← decide_not, Nat.not_lt]
  split <;> simp [hf]

theorem emitBit_payload_mem (b : Bool) (hf : s.call.fsm = .payload) : (emitBit b s).mem =
    { msg :=
        if s.call.bitn = 7 ∧ s.mem.msg.length < s.params.msgCap then s.mem.msg ++ [shiftIn s.call.acc b]
        else s.mem.msg
      raw := if s.mem.raw.length < s.params.rawCap then s.mem.raw ++ [b] else s.mem.raw } := by
  simp only [emitBit_payload s b hf, payloadBit_mem, assembleBit_mem, storeRawBit_mem_fields, storeRawBit_call,
    storeRawBit_params]

/-- Settles O30: the whole call and the whole of the buffers after the bit, and the reassembler's bits as a list. -/
theorem emitBitInPayload : Obligations.EmitBitInPayload := by
  intro s b hf
  refine ⟨shiftIn s.call.acc b, s.call.bitn + 1, shiftIn_eq_ofNat _ b, ?_, ?_, fun hroom =>
    emitBit_payload_assembled b hf fun _ => hroom⟩
  · rw [BitVec.toNat_add]
    rfl
  · refine State.ext_fields (by simp) (by simp) ?_ (by simp) (by simp) (emitBit_payload_mem b hf) (by simp) (by simp)
    rw [emitBit_payload_call b hf, bump32_toNat]
    rfl

/-! A bit in `SEARCH`. -/

/-- The state that the matcher of R160 looks at: the bit is stored, counted and shifted in. -/
def takeSearchBit (b : Bool) (s : State) : State :=
  (storeRawBit b s).withCall { (storeRawBit b s).call with sr := shiftIn s.call.sr b }

@[simp] theorem takeSearchBit_params (b : Bool) (s : State) : (takeSearchBit b s).params = s.params := by
  simp [takeSearchBit]

@[simp] theorem takeSearchBit_cfg (b : Bool) (s : State) : (takeSearchBit b s).cfg = s.cfg := by simp [takeSearchBit]

@[simp] theorem takeSearchBit_call_fsm (b : Bool) (s : State) : (takeSearchBit b s).call.fsm = s.call.fsm := by
  simp [takeSearchBit]

theorem emitBit_search_eq (b : Bool) (hf : s.call.fsm = .search) : emitBit b s =
    if patternMatch (takeSearchBit b s) then enterPayload (takeSearchBit b s) else takeSearchBit b s := by
  rw [emitBit_search s b hf, searchBit, storeRawBit_call_sr]
  rfl

theorem takeSearchBit_eq (b : Bool) (s : State) : takeSearchBit b s = { s with
    mem := { s.mem with raw := if s.mem.raw.length < s.params.rawCap then s.mem.raw ++ [b] else s.mem.raw }
    call := { s.call with
      bitcnt := bump32 s.call.bitcnt
      rawovf := s.call.rawovf || decide (s.params.rawCap ≤ s.mem.raw.length)
      sr := shiftIn s.call.sr b } } := by
  unfold takeSearchBit
  refine State.ext_fields (by simp) (by simp) ?_ (by simp) (by simp) (storeRawBit_mem_fields b s) (by simp) (by simp)
  simp only [State.withCall_call, storeRawBit_call, ← decide_not, Nat.not_lt]

/-- The matcher's condition of R160 for any `PAT_LEN`: beyond bit 15 neither register has a bit to differ in. -/
theorem patternMatch_iff_bits : patternMatch s = true ↔
    s.cfg.patLen.toNat ≤ s.call.bitcnt.toNat ∧
      ∀ j < s.cfg.patLen.toNat, s.call.sr.getLsbD j = s.cfg.pat.getLsbD j := by
  rcases Nat.lt_or_ge s.cfg.patLen.toNat 16 with hn | hn
  · exact patternMatch_iff hn.le
  have hmask : patMask s.cfg = BitVec.allOnes 16 := by
    refine BitVec.eq_of_getLsbD_eq fun j hj => ?_
    rw [getLsbD_patMask s.cfg hj, BitVec.getLsbD_allOnes, decide_eq_true hj, decide_eq_true (hj.trans_le hn)]
  rw [patternMatch, Bool.and_eq_true, decide_eq_true_iff, decide_eq_true_iff, hmask, BitVec.and_allOnes,
    BitVec.and_allOnes]
  refine and_congr_right fun _ => ⟨fun h j _ => by rw [h], fun h => ?_⟩
  exact BitVec.eq_of_getLsbD_eq fun j hj => h j (hj.trans_le hn)

/-- Settles O31: the matcher sees the bit just taken, and its two answers exclude each other. -/
theorem emitBitInSearch : Obligations.EmitBitInSearch := by
  refine fun s b hf => ⟨takeSearchBit b s, ?_, fun hlen hbits => ?_, fun hno => ?_⟩
  · rw [takeSearchBit_eq, shiftIn_eq_ofNat]
    rfl
  · rw [emitBit_search_eq b hf, if_pos (patternMatch_iff_bits.2 (by rw [takeSearchBit_cfg]; exact ⟨hlen, hbits⟩))]
  · rw [emitBit_search_eq b hf, if_neg]
    rw [patternMatch_iff_bits, takeSearchBit_cfg]
    rintro ⟨hlen, hbits⟩
    rcases hno with hlt | ⟨j, hj, hne⟩
    · omega
    · exact hne (hbits j hj)

end Sys2Proof.Machine
end

section
/-! SUPPORT. The bits of a whole message through the reassembler (spec 42_reassembler.md R188, 30_encoding.md R99). -/

namespace Sys2Proof.Machine

variable {s : State} {n : Nat}

/-! The bitstream determines the message. -/

theorem byteBits_injective : Function.Injective byteBits := by
  intro x y h
  rw [byteBits_eq_map, byteBits_eq_map] at h
  refine BitVec.eq_of_getLsbD_eq fun i hi => ?_
  have hbit := List.map_inj_left.1 h (7 - i) (List.mem_range.2 (by omega))
  rwa [show 7 - (7 - i) = i by omega] at hbit

theorem length_bitstream (m : List Byte) : (bitstream m).length = 8 * m.length := by
  simp [bitstream, byteBits, List.length_flatMap, Nat.mul_comm]

theorem bitstream_injective : Function.Injective bitstream := by
  intro m
  induction m with
  | nil =>
    intro m' h
    have hlen := congrArg List.length h
    rw [length_bitstream, length_bitstream, List.length_nil] at hlen
    exact (List.length_eq_zero_iff.1 (by omega)).symm
  | cons x m ih =>
    rintro (_ | ⟨y, m'⟩) h
    · have hlen := congrArg List.length h
      rw [length_bitstream, length_bitstream, List.length_nil, List.length_cons] at hlen
      omega
    · rw [bitstream, bitstream, List.flatMap_cons, List.flatMap_cons] at h
      obtain ⟨hxy, hrest⟩ := List.append_inj h rfl
      rw [byteBits_injective hxy, ih hrest]

/-- The reassembler holds eight bits for each byte of `MSG`, and those of the byte being assembled. -/
theorem length_assembled (s : State) : s.assembled.length = 8 * s.mem.msg.length + s.call.bitn.toNat := by
  rw [State.assembled, List.length_append, Call.accBits, List.length_map, List.length_range]
  congr 1
  exact length_bitstream s.mem.msg

/-! A pattern call that still reads. -/

/-- The call reads a payload of pattern mode whose end is `n` bits away, `MSG` has room for the bytes of those bits, and
`BITCNT` counts them without saturating. -/
structure Awaits (n : Nat) (s : State) : Prop where
  fsm : s.call.fsm = .payload
  sync : s.cfg.sync = .pat
  due : s.call.bitcnt.toNat + n = s.call.syncBit.toNat + s.cfg.payloadLen
  counted : s.call.bitcnt.toNat + n ≤ 0xFFFFFFFF
  room : s.assembled.length + n ≤ 8 * s.params.msgCap

theorem Awaits.msg_room (h : Awaits (n + 1) s) : s.mem.msg.length < s.params.msgCap := by
  have hroom := h.room
  rw [length_assembled] at hroom
  omega

theorem Awaits.bitcnt (h : Awaits (n + 1) s) : (bump32 s.call.bitcnt).toNat = s.call.bitcnt.toNat + 1 := by
  have hcounted := h.counted
  exact bump32_of_lt (by omega)

theorem Awaits.assembled (h : Awaits (n + 1) s) (b : Bool) : (emitBit b s).assembled = s.assembled ++ [b] :=
  emitBit_payload_assembled b h.fsm fun _ => h.msg_room

theorem Awaits.msgovf (h : Awaits (n + 1) s) (b : Bool) : (emitBit b s).call.msgovf = s.call.msgovf := by
  rw [emitBit_payload_msgovf s b h.fsm, decide_eq_true h.msg_room, Bool.not_true, Bool.and_false, Bool.or_false]

/-- A bit that is not the last leaves the call reading (41_synchronizer.md R162). -/
theorem Awaits.next_bit (h : Awaits (n + 2) s) (b : Bool) : Awaits (n + 1) (emitBit b s) := by
  have hdue := h.due
  have hcounted := h.counted
  have hroom := h.room
  have hcnt := h.bitcnt
  refine ⟨?_, by rw [emitBit_cfg, h.sync], ?_, ?_, ?_⟩
  · rw [emitBit_payload_fsm s b h.fsm, if_neg fun hend => by omega]
  · rw [emitBit_call_bitcnt, hcnt, emitBit_payload_syncBit s b h.fsm, emitBit_cfg]
    omega
  · rw [emitBit_call_bitcnt, hcnt]
    omega
  · rw [h.assembled b, List.length_append, List.length_singleton, emitBit_params]
    omega

/-- The last bit ends the call (41_synchronizer.md R162, 42_reassembler.md R184). -/
theorem Awaits.last_bit (h : Awaits 1 s) (b : Bool) :
    (emitBit b s).call.fsm = .done ∧ (emitBit b s).call.left = (emitBit b s).call.bitn := by
  have hend : s.cfg.sync = .pat ∧ (bump32 s.call.bitcnt).toNat = s.call.syncBit.toNat + s.cfg.payloadLen :=
    ⟨h.sync, by rw [h.bitcnt, h.due]⟩
  rw [emitBit_payload_fsm s b h.fsm, emitBit_payload_left s b h.fsm, if_pos hend, if_pos hend]
  exact ⟨rfl, rfl⟩

/-- The bits that a call awaits end it, each of them assembled, none lost. -/
theorem Awaits.all_bits {bits : List Bool} (hne : bits ≠ []) (h : Awaits bits.length s) :
    ∃ t, bits.foldl (fun u b => emitBit b u) s = t ∧ t.call.fsm = .done ∧ t.call.left = t.call.bitn ∧
      t.assembled = s.assembled ++ bits ∧ t.call.msgovf = s.call.msgovf := by
  induction bits generalizing s with
  | nil => exact absurd rfl hne
  | cons b bits ih =>
    cases bits with
    | nil =>
      obtain ⟨hdone, hleft⟩ := h.last_bit b
      exact ⟨_, rfl, hdone, hleft, h.assembled b, h.msgovf b⟩
    | cons b' bits =>
      obtain ⟨t, ht, hdone, hleft, hbits, hovf⟩ := ih (List.cons_ne_nil _ _) (h.next_bit b)
      refine ⟨t, ht, hdone, hleft, ?_, hovf.trans (h.msgovf b)⟩
      rw [hbits, h.assembled b, List.append_assoc]
      rfl

/-- A reassembler that holds the bitstream of a message holds the message, and no bit more. -/
theorem msg_of_assembled_bitstream {m : List Byte} (h : s.assembled = bitstream m) :
    s.mem.msg = m ∧ s.call.bitn = 0 := by
  have hlen := congrArg List.length h
  rw [length_assembled, length_bitstream] at hlen
  have hbound := s.call.bitn.isLt
  have hzero : s.call.bitn.toNat = 0 := by omega
  refine ⟨bitstream_injective ?_, BitVec.eq_of_toNat_eq hzero⟩
  rwa [State.assembled, Call.accBits, hzero, List.range_zero, List.map_nil, List.append_nil] at h

/-- Settles O33, by induction on the bits that the call awaits: at the end they are the bitstream of `MSG`. -/
theorem reassemblyInvertsBitstream : Obligations.ReassemblyInvertsBitstream := by
  intro s m hm hcap hf hsync hmsg hbitn hbit hcounted hlen
  have hempty : s.assembled = [] := by
    rw [State.assembled, Call.accBits, hmsg, hbitn]
    rfl
  have hne : bitstream m ≠ [] := fun h => hm (bitstream_injective h)
  have hawaits : Awaits (bitstream m).length s := by
    rw [length_bitstream]
    exact ⟨hf, hsync, by rw [hbit, ← hlen]; rfl, hcounted, by rw [hempty, List.length_nil]; omega⟩
  obtain ⟨t, ht, hdone, hleft, hbits, hovf⟩ := hawaits.all_bits hne
  rw [hempty, List.nil_append] at hbits
  obtain ⟨hmsg', hzero⟩ := msg_of_assembled_bitstream hbits
  exact ⟨t, ht, hdone, hmsg', hleft.trans hzero, hovf⟩

end Sys2Proof.Machine
end

section
/-! SUPPORT. A running call in elementary steps: what a record, `START` or `END` does to the reassembler and to the state of
the call is a sequence of these (spec 41_synchronizer.md R140, R170, R171, 42_reassembler.md R181, R184, R185,
43_orchestrator.md R205, R208). -/

namespace Sys2Proof.Machine

variable {s t x : State}

/-- The states differ at most in the record index, the presence accumulator and the counters, and in what is no part of a
call. -/
abbrev SameReassembler (t s : State) : Prop :=
  t.params = s.params ∧ t.cfg = s.cfg ∧ t.mem = s.mem ∧
  t.call = { s.call with
    pos := t.call.pos, wsum := t.call.wsum, wcnt := t.call.wcnt, glitchCnt := t.call.glitchCnt,
    skipCnt := t.call.skipCnt, dropCnt := t.call.dropCnt, warmCnt := t.call.warmCnt }

/-- The elementary steps of a running call. -/
inductive CallStep (s : State) : State → Prop
  | record {x : State} : s.call.fsm.running = true → SameReassembler x s → CallStep s x
  | searchBit (b : Bool) : s.call.fsm = .search → s.cfg.sync = .pat → CallStep s (takeSearchBit b s)
  | enter : s.call.fsm = .search → CallStep s (enterPayload s)
  | payloadBit (b : Bool) : s.call.fsm = .payload → CallStep s (emitBit b s)
  | done : s.call.fsm = .payload → CallStep s (finalize .done s)
  | short : s.call.fsm = .payload → CallStep s (finalize .done (s.withCall { s.call with short := true }))
  | silence : s.call.fsm = .search → s.cfg.sync ≠ .pat → CallStep s (finalize .silence s)
  | unsynced : s.call.fsm = .search →
      CallStep s (finalize .unsynced (s.withCall { s.call with nopre := true }))

abbrev CallSteps : State → State → Prop := Relation.ReflTransGen CallStep

/-- What each elementary step keeps, a sequence of them keeps. -/
theorem CallSteps.preserves {P : State → Prop} (step : ∀ s x : State, CallStep s x → P s → P x)
    (h : CallSteps s x) (hs : P s) : P x := by
  induction h with
  | refl => exact hs
  | tail _ hx ih => exact step _ _ hx ih

/-! The operations that the reassembler does not see. -/

theorem windowSample_sameReassembler (p : Nat) (v : Half) (s : State) : SameReassembler (windowSample p v s) s := by
  unfold windowSample
  split <;> exact ⟨rfl, rfl, rfl, rfl⟩

theorem classifyUpdate_sameReassembler (v : Half) (s : State) : SameReassembler (classifyUpdate v s) s := by
  refine ⟨by simp, by simp, by simp, ?_⟩
  rcases classifyUpdate_call s v with h | h <;> rw [h]

theorem advancePos_steps (hr : s.call.fsm.running = true) : CallSteps s (advancePos s) :=
  .single (.record hr ⟨rfl, rfl, rfl, rfl⟩)

theorem countGlitch_step (hr : s.call.fsm.running = true) : CallStep s (countGlitch s) :=
  .record hr ⟨rfl, rfl, rfl, rfl⟩

theorem countSkip_step (hr : s.call.fsm.running = true) : CallStep s (countSkip s) :=
  .record hr ⟨rfl, rfl, rfl, rfl⟩

theorem countDrop_step (hr : s.call.fsm.running = true) : CallStep s (countDrop s) :=
  .record hr ⟨rfl, rfl, rfl, rfl⟩

/-- A sample that the classifier sees, up to its bit (41_synchronizer.md R140). -/
theorem classifyUpdate_steps (d : Half) (hr : s.call.fsm.running = true) :
    CallSteps s (classifyUpdate d (windowSample s.call.pos.toNat d (advancePos s))) :=
  ((advancePos_steps hr).tail (.record hr (windowSample_sameReassembler _ d _))).tail
    (.record (by simpa using hr) (classifyUpdate_sameReassembler d _))

/-! `EmitBit` and `PosCheck`. -/

/-- A bit of `SEARCH` is of pattern mode, and what follows a match is the entry into the payload (R181). -/
theorem emitBit_steps (b : Bool) (hr : s.call.fsm.running = true)
    (he : s.cfg.sync = .pat ∨ s.call.fsm = .payload) : CallSteps s (emitBit b s) := by
  cases hf : s.call.fsm with
  | payload => exact .single (.payloadBit b hf)
  | search =>
    have htake : CallSteps s (takeSearchBit b s) :=
      .single (.searchBit b hf (he.resolve_right (by simp [hf])))
    rw [emitBit_search_eq b hf]
    split
    · exact htake.tail (.enter ((takeSearchBit_call_fsm b s).trans hf))
    · exact htake
  | _ =>
    rw [hf] at hr
    cases hr

theorem windowCheck_steps (hm : s.cfg.sync = .pos) : CallSteps s (windowCheck s) := by
  unfold windowCheck decidePresence
  split
  next h =>
    split
    · exact .single (.enter h.1)
    · exact .single (.silence h.1 (by simp [hm]))
  next => exact .refl

theorem payloadCheck_steps (s : State) : CallSteps s (payloadCheck s) := by
  unfold payloadCheck
  split
  next h => exact .single (.done h.1)
  next => exact .refl

theorem posCheck_steps (s : State) : CallSteps s (posCheck s) := by
  unfold posCheck
  split
  next hm => exact (windowCheck_steps hm).trans (payloadCheck_steps _)
  next => exact .refl

/-! The commands of a call. -/

theorem SampleEffect.callSteps {d : Half} (h : SampleEffect d s x) (hr : s.call.fsm.running = true) :
    CallSteps s x := by
  have hpos := advancePos_steps hr
  cases h with
  | handshake _ hf => exact hpos.tail (.enter hf)
  | otherTone _ _ => exact hpos
  | drop _ _ => exact hpos.tail (countDrop_step hr)
  | symbol k hm hf =>
    have hp : (advancePos s).call.fsm = .payload := by
      cases hfsm : s.call.fsm <;> simp_all [Fsm.running]
    have hp' : (emitBit (k.getLsbD 1) (advancePos s)).call.fsm = .payload :=
      emitBit_fsm_of_not_pat _ (by simp [hm]) hp
    exact (hpos.tail (.payloadBit _ hp)).tail (.payloadBit _ hp')
  | glitched _ _ => exact (hpos.tail (countGlitch_step hr)).trans (posCheck_steps _)
  | noBit _ _ => exact (classifyUpdate_steps d hr).trans (posCheck_steps _)
  | bit b _ _ he =>
    exact ((classifyUpdate_steps d hr).trans (emitBit_steps b (by simpa using hr) (by simpa using he))).trans
      (posCheck_steps _)

theorem skip_steps (hr : s.call.fsm.running = true) : CallSteps s (posCheck (countSkip (advancePos s))) :=
  ((advancePos_steps hr).tail (countSkip_step hr)).trans (posCheck_steps _)

theorem decideAtStart_steps (hf : s.call.fsm = .search) : CallSteps s (decideAtStart s) := by
  unfold decideAtStart
  split
  · exact posCheck_steps s
  split
  · exact .single (.enter hf)
  · exact .refl

theorem endSearch_step (hf : s.call.fsm = .search) : CallStep s (endSearch s) := by
  unfold endSearch
  split
  next => exact .unsynced hf
  next hm => exact .silence hf hm

theorem endPayload_step (hf : s.call.fsm = .payload) : CallStep s (endPayload s) := by
  unfold endPayload
  split
  · exact .short hf
  · exact .done hf

/-- What a step of the machine does to a call: nothing outside a running one but the count of a glitch (10_state.md R39),
a reset, elementary steps of the call, or such steps of a call just opened. -/
theorem Change.call_cases (h : Change s x) :
    (s.call.fsm.running = false ∧ x.mem = s.mem ∧ (x.call = s.call ∨ x = countGlitch s)) ∨ x = resetState s ∨
      CallSteps s x ∨ CallSteps (openCall s) x := by
  cases h with
  | same => exact .inr (.inr (.inl .refl))
  | reset => exact .inr (.inl rfl)
  | write r d hn _ => exact .inl ⟨hn, writeCfg_mem s r d, .inl (writeCfg_call s r d)⟩
  | calibrate d hn _ _ => exact .inl ⟨hn, calibrate_mem s d, .inl (calibrate_call s d)⟩
  | clear hn => exact .inl ⟨hn, rfl, .inl rfl⟩
  | calsGlitch hn => exact .inl ⟨hn, rfl, .inr rfl⟩
  | start _ => exact .inr (.inr (.inr (decideAtStart_steps rfl)))
  | sample d hr => exact .inr (.inr (.inl ((sampleRunning_effect d s).callSteps hr)))
  | skip hr => exact .inr (.inr (.inl (skip_steps hr)))
  | endSearch hf => exact .inr (.inr (.inl (.single (endSearch_step hf))))
  | endPayload hf => exact .inr (.inr (.inl (.single (endPayload_step hf))))

end Sys2Proof.Machine
end

section
/-! SUPPORT. What each state of the call implies (spec 10_state.md R35, R37, 42_reassembler.md R184, R185, R187). -/

namespace Sys2Proof.Machine

variable {s t x : State}

/-! `CallOk` in each state. -/

/-- In `SEARCH` nothing is assembled, and outside pattern mode no bit has come. -/
abbrev SearchOk (s : State) : Prop :=
  s.mem.msg = [] ∧ s.call.msgovf = false ∧ s.call.acc = 0 ∧ s.call.bitn = 0 ∧ s.call.syncPos = 0 ∧
  s.call.syncBit = 0 ∧ (s.cfg.sync ≠ .pat → s.mem.raw = [] ∧ s.call.bitcnt = 0)

/-- In `PAYLOAD` the bits are counted from the sync on, and pattern mode has not come to its `L` bits. -/
abbrev ReadingOk (s : State) : Prop :=
  s.call.syncBit.toNat ≤ s.call.bitcnt.toNat ∧
  (s.cfg.sync ≠ .pat → s.call.syncBit = 0) ∧
  (s.cfg.sync = .pat → s.call.bitcnt.toNat < s.call.syncBit.toNat + s.cfg.payloadLen)

/-- No flag of the end of a call is set. -/
abbrev FlagsClear (s : State) : Prop := s.call.nopre = false ∧ s.call.short = false ∧ s.call.left = 0

theorem callOk_iff_of_search (hf : s.call.fsm = .search) : CallOk s ↔ SearchOk s ∧ FlagsClear s := by
  simp [CallOk, hf, Fsm.running, Fsm.terminal, and_assoc]

theorem callOk_iff_of_payload (hf : s.call.fsm = .payload) : CallOk s ↔ ReadingOk s ∧ FlagsClear s := by
  simp [CallOk, hf, Fsm.running, Fsm.terminal, and_assoc]

theorem callOk_iff_of_done (hf : s.call.fsm = .done) :
    CallOk s ↔ s.call.nopre = false ∧ s.call.left = s.call.bitn := by
  simp [CallOk, hf, Fsm.running, Fsm.terminal]

theorem callOk_iff_of_silence (hf : s.call.fsm = .silence) : CallOk s ↔
    (s.mem = Memory.reset ∧ s.call.bitcnt = 0 ∧ s.call.left = 0) ∧ s.call.nopre = false ∧
      s.call.short = false ∧ s.call.left = s.call.bitn := by
  simp [CallOk, hf, Fsm.running, Fsm.terminal]

theorem callOk_iff_of_unsynced (hf : s.call.fsm = .unsynced) : CallOk s ↔
    (s.mem.msg = [] ∧ s.call.left = 0) ∧ s.call.nopre = true ∧ s.call.short = false ∧
      s.call.left = s.call.bitn := by
  simp [CallOk, hf, Fsm.running, Fsm.terminal]

/-! The elementary steps of a call. -/

theorem SameReassembler.callOk (h : SameReassembler t s) (hr : s.call.fsm.running = true) (hs : CallOk s) :
    CallOk t := by
  obtain ⟨_, hc, hm, hl⟩ := h
  have hfsm : t.call.fsm = s.call.fsm := by rw [hl]
  cases hf : s.call.fsm with
  | search =>
    rw [callOk_iff_of_search hf] at hs
    rw [callOk_iff_of_search (hfsm.trans hf), SearchOk, FlagsClear, hc, hm, hl]
    exact hs
  | payload =>
    rw [callOk_iff_of_payload hf] at hs
    rw [callOk_iff_of_payload (hfsm.trans hf), ReadingOk, FlagsClear, hc, hl]
    exact hs
  | _ =>
    rw [hf] at hr
    cases hr

theorem takeSearchBit_callOk (b : Bool) (hf : s.call.fsm = .search) (hm : s.cfg.sync = .pat) (hs : CallOk s) :
    CallOk (takeSearchBit b s) := by
  obtain ⟨⟨hmsg, hovf, hacc, hbitn, hpos, hbit, _⟩, hflags⟩ := (callOk_iff_of_search hf).1 hs
  rw [callOk_iff_of_search ((takeSearchBit_call_fsm b s).trans hf), takeSearchBit_eq]
  exact ⟨⟨hmsg, hovf, hacc, hbitn, hpos, hbit, fun hne => absurd hm hne⟩, hflags⟩

/-- The payload is entered with no payload bit yet, so a payload of any length is not read to its end. -/
theorem enterPayload_callOk (hf : s.call.fsm = .search) (hs : CallOk s) : CallOk (enterPayload s) := by
  obtain ⟨⟨_, _, _, _, _, _, hbits⟩, hnopre, hshort, hleft⟩ := (callOk_iff_of_search hf).1 hs
  by_cases he : s.cfg.sync ≠ .tone ∧ s.cfg.payloadLen = 0
  · rw [enterPayload_of_empty he.1 he.2]
    exact (callOk_iff_of_done rfl).2 ⟨hnopre, rfl⟩
  · rw [enterPayload_of_reading ((not_and_or.1 he).imp_left not_not.1)]
    refine (callOk_iff_of_payload rfl).2 ⟨⟨le_rfl, fun hm => (hbits hm).2, fun hm => ?_⟩, hnopre, hshort, hleft⟩
    have hm' : s.cfg.sync = .pat := hm
    have hlen : s.cfg.payloadLen ≠ 0 := fun hz => he ⟨by simp [hm'], hz⟩
    exact Nat.lt_add_of_pos_right (Nat.pos_of_ne_zero hlen)

/-- The bit before which pattern mode lacks one of its `L` bits ends the call; at the saturation of `BITCNT` no bit
does (10_state.md R37). -/
theorem emitBit_payload_callOk (b : Bool) (hf : s.call.fsm = .payload) (hs : CallOk s) : CallOk (emitBit b s) := by
  obtain ⟨⟨hle, hzero, hlt⟩, hnopre, hshort, hleft⟩ := (callOk_iff_of_payload hf).1 hs
  have hcall := emitBit_payload_call b hf
  by_cases hend : s.cfg.sync = .pat ∧ (bump32 s.call.bitcnt).toNat = s.call.syncBit.toNat + s.cfg.payloadLen
  · rw [if_pos hend, if_pos hend] at hcall
    rw [callOk_iff_of_done (by rw [hcall]), hcall]
    exact ⟨hnopre, rfl⟩
  · rw [if_neg hend, if_neg hend] at hcall
    rw [callOk_iff_of_payload (by rw [hcall]), ReadingOk, FlagsClear, hcall, emitBit_cfg]
    have hcnt := bump32_toNat s.call.bitcnt
    refine ⟨⟨?_, hzero, fun hm => ?_⟩, hnopre, hshort, hleft⟩
    · have := s.call.bitcnt.isLt
      dsimp only
      omega
    · have hne : (bump32 s.call.bitcnt).toNat ≠ s.call.syncBit.toNat + s.cfg.payloadLen := fun h => hend ⟨hm, h⟩
      have := hlt hm
      dsimp only
      omega

theorem CallStep.callOk (h : CallStep s x) (hs : CallOk s) : CallOk x := by
  cases h with
  | record hr hx => exact hx.callOk hr hs
  | searchBit b hf hm => exact takeSearchBit_callOk b hf hm hs
  | enter hf => exact enterPayload_callOk hf hs
  | payloadBit b hf => exact emitBit_payload_callOk b hf hs
  | done hf =>
    obtain ⟨_, hnopre, _, _⟩ := (callOk_iff_of_payload hf).1 hs
    exact (callOk_iff_of_done rfl).2 ⟨hnopre, rfl⟩
  | short hf =>
    obtain ⟨_, hnopre, _, _⟩ := (callOk_iff_of_payload hf).1 hs
    exact (callOk_iff_of_done rfl).2 ⟨hnopre, rfl⟩
  | silence hf hm =>
    obtain ⟨⟨hmsg, _, _, hbitn, _, _, hbits⟩, hnopre, hshort, _⟩ := (callOk_iff_of_search hf).1 hs
    obtain ⟨hraw, hcnt⟩ := hbits hm
    have hmem : s.mem = Memory.reset := congrArg₂ Memory.mk hmsg hraw
    exact (callOk_iff_of_silence rfl).2 ⟨⟨hmem, hcnt, hbitn⟩, hnopre, hshort, rfl⟩
  | unsynced hf =>
    obtain ⟨⟨hmsg, _, _, hbitn, _, _, _⟩, _, hshort, _⟩ := (callOk_iff_of_search hf).1 hs
    exact (callOk_iff_of_unsynced rfl).2 ⟨⟨hmsg, hbitn⟩, rfl, hshort, rfl⟩

/-! The steps of the machine. -/

theorem openCall_callOk (s : State) : CallOk (openCall s) :=
  (callOk_iff_of_search rfl).2 ⟨⟨rfl, rfl, rfl, rfl, rfl, rfl, fun _ => ⟨rfl, rfl⟩⟩, rfl, rfl, rfl⟩

/-- Outside a running call `CallOk` does not look at the configuration. -/
theorem callOk_congr_of_not_running (hn : s.call.fsm.running = false) (hm : t.mem = s.mem)
    (hl : t.call = s.call) (hs : CallOk s) : CallOk t := by
  obtain ⟨hidle, _, _, hrest⟩ := hs
  rw [CallOk, hm, hl]
  refine ⟨hidle, fun hf => ?_, fun hf => ?_, hrest⟩ <;>
  · rw [hf] at hn
    cases hn

theorem Change.callOk (h : Change s x) (hs : CallOk s) : CallOk x := by
  rcases h.call_cases with ⟨hn, hm, hl | rfl⟩ | rfl | hx | hx
  · exact callOk_congr_of_not_running hn hm hl hs
  · exact hs
  · exact resetWith_callOk s.params
  · exact hx.preserves (fun _ _ h => h.callOk) hs
  · exact hx.preserves (fun _ _ h => h.callOk) (openCall_callOk s)

/-- Settles O57, by the elementary steps of a call: each leads from what its state implies to what the next one does. -/
theorem stepKeepsCallState : Obligations.StepKeepsCallState := fun _ _ hs h =>
  step_preserves (Q := fun _ => True) (fun _ _ _ h => h) (fun _ _ hc hs => by rw [hc.eq_with]; exact hs)
    (fun _ _ hx _ hs => hx.callOk hs) trivial hs h

end Sys2Proof.Machine
end

section
/-! SUPPORT. `MSG` and the byte being assembled against the payload bits of `RAW` (spec 42_reassembler.md R182 to R184, R189,
20_memory.md R61, R62). -/

namespace Sys2Proof.Machine

variable {s t x : State}

/-- `MSG` is the regrouping of the payload bits of `RAW`, counted and bit by bit. -/
abbrev Regrouped (s : State) : Prop := PayloadOk s ∧ MessageOk s

theorem regrouped_of_not_synced (h : ¬ Synced s) : Regrouped s := ⟨fun hs => absurd hs h, fun hs => absurd hs h⟩

/-- The regrouping looks at the sizes, the buffers, the bit counters and the reassembler alone, in a call that synced. -/
theorem regrouped_congr (hsync : Synced t → Synced s) (hp : t.params = s.params) (hm : t.mem = s.mem)
    (hb : t.call.bitcnt = s.call.bitcnt) (hy : t.call.syncBit = s.call.syncBit) (ha : t.call.acc = s.call.acc)
    (hn : t.call.bitn = s.call.bitn) (ho : t.call.msgovf = s.call.msgovf) (h : Regrouped s) : Regrouped t := by
  obtain ⟨hcount, hbits⟩ := h
  refine ⟨fun ht => ?_, fun ht => ?_⟩
  · rw [State.payloadBits, hp, hm, hb, hy, hn, ho]
    exact hcount (hsync ht)
  · rw [Call.accBits, hp, hm, hb, hy, ha, hn]
    exact hbits (hsync ht)

/-- At the sync no payload bit has come, and nothing is assembled (R185). -/
theorem enterPayload_regrouped (hf : s.call.fsm = .search) (hc : CallOk s) : Regrouped (enterPayload s) := by
  obtain ⟨⟨hmsg, hovf, _, hbitn, _⟩, _⟩ := (callOk_iff_of_search hf).1 hc
  have hsync : (enterPayload s).call.syncBit = s.call.bitcnt := by
    rw [enterPayload_call]
    split <;> rfl
  have hnone : (enterPayload s).payloadBits = 0 := by
    rw [State.payloadBits, hsync, enterPayload_call_bitcnt, Nat.sub_self]
  refine ⟨fun _ _ => ?_, fun _ _ => ⟨fun i hi => ?_, fun _ => ?_⟩⟩
  · rw [hnone, hsync]
    simp [hmsg, hovf, hbitn]
  · simp [hmsg] at hi
  · simp [Call.accBits, hbitn]

/-! A bit in `PAYLOAD`. -/

/-- The bits of the byte being assembled, with one bit more: those of the next such byte, or of the completed one. -/
theorem accBits_append (c : Call) (b : Bool) : c.accBits ++ [b] =
    (List.range (c.bitn.toNat + 1)).map fun j => (shiftIn c.acc b).getLsbD (c.bitn.toNat - j) :=
  (map_getLsbD_shiftIn c.acc b c.bitn.isLt).symm

theorem byteBits_shiftIn {c : Call} (b : Bool) (hn : c.bitn.toNat + 1 = 8) :
    byteBits (shiftIn c.acc b) = c.accBits ++ [b] := by
  have hseven : c.bitn.toNat = 7 := Nat.succ.inj hn
  rw [accBits_append, byteBits_eq_map, hseven]

theorem emitBit_payload_accBits (b : Bool) (hf : s.call.fsm = .payload) : (emitBit b s).call.accBits =
    if s.call.bitn.toNat + 1 = 8 then [] else s.call.accBits ++ [b] := by
  rw [Call.accBits, emitBit_payload_bitn s b hf, emitBit_payload_acc s b hf]
  split
  next => rfl
  next => exact (accBits_append s.call b).symm

/-- The bits that `RAW` held before a bit, it holds after it. -/
theorem emitBit_raw_take_drop (b : Bool) (s : State) {k n : Nat} (h : k + n ≤ s.mem.raw.length) :
    ((emitBit b s).mem.raw.drop k).take n = (s.mem.raw.drop k).take n := by
  obtain ⟨bits, _, hraw⟩ := emitBit_growsBy_raw b s
  rw [hraw, List.drop_append_of_le_length (by omega),
    List.take_append_of_le_length (by rw [List.length_drop]; omega)]

/-- The numbers of R183, R184 and R189 after one bit more. -/
theorem emitBit_payloadOk (b : Bool) (hf : s.call.fsm = .payload) (h : PayloadOk s) : PayloadOk (emitBit b s) := by
  intro _ hcnt
  rw [emitBit_call_bitcnt, bump32_toNat] at hcnt
  have hbump : (bump32 s.call.bitcnt).toNat = s.call.bitcnt.toNat + 1 := bump32_of_lt (by omega)
  obtain ⟨hle, hmsg, hbitn, hovf⟩ := h (.inl hf) (by omega)
  have hbits : (emitBit b s).payloadBits = s.payloadBits + 1 := by
    rw [State.payloadBits, State.payloadBits, emitBit_call_bitcnt, hbump, emitBit_payload_syncBit s b hf]
    omega
  rw [hbits, emitBit_call_bitcnt, hbump, emitBit_payload_syncBit s b hf, emitBit_params, emitBit_payload_bitn s b hf,
    emitBit_payload_msgovf s b hf, emitBit_payload_msg s b hf]
  refine ⟨by omega, ?_, ?_, ?_⟩
  · split
    · rw [List.length_append, List.length_singleton]
      omega
    · omega
  · split <;> omega
  · rw [hovf, Bool.eq_iff_iff]
    simp only [Bool.or_eq_true, Bool.and_eq_true, Bool.not_eq_true', decide_eq_true_eq, decide_eq_false_iff_not]
    omega

/-- A stored byte stays the eight bits of `RAW` that it was, and a bit that finds no room in `RAW` reveals no more of
them. -/
theorem emitBit_stored_byte (b : Bool) (hf : s.call.fsm = .payload) (hb : BuffersOk s) (h : Regrouped s)
    (hcnt : s.call.bitcnt.toNat < 0xFFFFFFFF) {i : Nat} (hi : i < s.mem.msg.length)
    (hend : s.call.syncBit.toNat + 8 * i + 8 ≤ (emitBit b s).mem.raw.length) :
    byteBits (s.mem.msg.getD i 0) = ((emitBit b s).mem.raw.drop (s.call.syncBit.toNat + 8 * i)).take 8 := by
  obtain ⟨_, hlen, _⟩ := hb
  obtain ⟨hle, hmsg, _, _⟩ := h.1 (.inl hf) hcnt
  obtain ⟨hbytes, _⟩ := h.2 (.inl hf) hcnt
  rw [State.payloadBits] at hmsg
  have hend' : s.call.syncBit.toNat + 8 * i + 8 ≤ s.mem.raw.length := by
    rw [emitBit_mem_raw] at hend
    split at hend <;> omega
  rw [hbytes i hi hend', emitBit_raw_take_drop b s hend']

/-- A byte that a bit completes is the last eight bits of `RAW`, wherever `RAW` holds them (R182). -/
theorem emitBit_completed_byte (b : Bool) (hf : s.call.fsm = .payload) (hb : BuffersOk s) (h : Regrouped s)
    (hcnt : s.call.bitcnt.toNat < 0xFFFFFFFF) (hn : s.call.bitn.toNat + 1 = 8)
    (hroom : s.mem.msg.length < s.params.msgCap)
    (hend : s.call.syncBit.toNat + 8 * s.mem.msg.length + 8 ≤ (emitBit b s).mem.raw.length) :
    byteBits (shiftIn s.call.acc b) =
      ((emitBit b s).mem.raw.drop (s.call.syncBit.toNat + 8 * s.mem.msg.length)).take 8 := by
  obtain ⟨_, hlen, _⟩ := hb
  obtain ⟨hle, hmsg, hbitn, _⟩ := h.1 (.inl hf) hcnt
  obtain ⟨_, hacc⟩ := h.2 (.inl hf) hcnt
  rw [State.payloadBits] at hmsg hbitn
  have hstart : s.call.syncBit.toNat + 8 * s.mem.msg.length = s.call.bitcnt.toNat - s.call.bitn.toNat := by omega
  rw [emitBit_mem_raw] at hend ⊢
  split at hend
  next hraw =>
    have hall : s.mem.raw.length = s.call.bitcnt.toNat := by omega
    rw [if_pos hraw, hstart, byteBits_shiftIn b hn, hacc (by omega), hall,
      List.drop_append_of_le_length (by omega), List.take_of_length_le]
    rw [List.length_append, List.length_singleton, List.length_drop]
    omega
  next => omega

/-- The bits of R182, after one bit more. -/
theorem emitBit_messageOk (b : Bool) (hf : s.call.fsm = .payload) (hb : BuffersOk s) (h : Regrouped s) :
    MessageOk (emitBit b s) := by
  intro _ hcnt
  rw [emitBit_call_bitcnt, bump32_toNat] at hcnt
  have hold : s.call.bitcnt.toNat < 0xFFFFFFFF := by omega
  rw [emitBit_call_bitcnt, bump32_of_lt hold, emitBit_payload_syncBit s b hf, emitBit_params,
    emitBit_payload_msg s b hf, emitBit_payload_accBits b hf, emitBit_payload_bitn s b hf]
  refine ⟨fun i hi hend => ?_, fun hcap => ?_⟩
  · by_cases hnew : (s.call.bitn.toNat + 1 = 8 ∧ s.mem.msg.length < s.params.msgCap) ∧ i = s.mem.msg.length
    · obtain ⟨hstored, rfl⟩ := hnew
      rw [if_pos hstored, List.getD_append_right _ _ _ _ le_rfl, Nat.sub_self]
      exact emitBit_completed_byte b hf hb h hold hstored.1 hstored.2 hend
    · have hlt : i < s.mem.msg.length := by
        split at hi
        next hstored =>
          rw [List.length_append, List.length_singleton] at hi
          exact lt_of_le_of_ne (Nat.le_of_lt_succ hi) fun he => hnew ⟨hstored, he⟩
        next => exact hi
      rw [← emitBit_stored_byte b hf hb h hold hlt hend]
      split
      · rw [List.getD_append _ _ _ _ hlt]
      · rfl
  · obtain ⟨_, hlen, _⟩ := hb
    obtain ⟨_, hacc⟩ := h.2 (.inl hf) hold
    have hraw : (emitBit b s).mem.raw = s.mem.raw ++ [b] := by rw [emitBit_mem_raw, if_pos (by omega)]
    rw [hraw]
    split
    next => rw [Nat.sub_zero, List.drop_length]
    next =>
      rw [hacc (by omega), List.length_append, List.length_singleton, Nat.add_sub_add_right,
        List.drop_append_of_le_length (Nat.sub_le _ _)]

/-! The elementary steps of a call. -/

theorem CallStep.params (h : CallStep s x) : x.params = s.params := by
  cases h with
  | record _ hx => exact hx.1
  | _ => simp

theorem CallStep.buffersOk (h : CallStep s x) (hp : s.params.Legal) (hs : BuffersOk s) : BuffersOk x := by
  cases h with
  | record _ hx =>
    obtain ⟨hp', _, hm, hl⟩ := hx
    exact buffersOk_congr hp' hm (by rw [hl]) (by rw [hl]) hs
  | searchBit b hf _ =>
    have hemit := emitBit_buffersOk b hp hs
    rw [emitBit_search_eq b hf] at hemit
    split at hemit
    · exact buffersOk_congr (s := enterPayload (takeSearchBit b s)) (by simp) (by simp) (by simp) (by simp) hemit
    · exact hemit
  | payloadBit b _ => exact emitBit_buffersOk b hp hs
  | _ => exact buffersOk_congr (by simp) (by simp) (by simp) (by simp) hs

theorem CallStep.regrouped (h : CallStep s x) (hb : BuffersOk s) (hc : CallOk s) (hs : Regrouped s) :
    Regrouped x := by
  cases h with
  | record _ hx =>
    obtain ⟨hp, _, hm, hl⟩ := hx
    exact regrouped_congr (by rw [Synced, Synced, hl]; exact id) hp hm (by rw [hl]) (by rw [hl]) (by rw [hl])
      (by rw [hl]) (by rw [hl]) hs
  | searchBit b hf _ => exact regrouped_of_not_synced (by simp [Synced, hf])
  | enter hf => exact enterPayload_regrouped hf hc
  | payloadBit b hf => exact ⟨emitBit_payloadOk b hf hs.1, emitBit_messageOk b hf hb hs⟩
  | done hf => exact regrouped_congr (fun _ => .inl hf) rfl rfl rfl rfl rfl rfl rfl hs
  | short hf => exact regrouped_congr (fun _ => .inl hf) rfl rfl rfl rfl rfl rfl rfl hs
  | silence _ _ => exact regrouped_of_not_synced (by simp [Synced])
  | unsynced _ => exact regrouped_of_not_synced (by simp [Synced])

/-! The steps of the machine. -/

/-- The conditions on the buffers and on the call that the regrouping rests on. -/
abbrev RegroupingBasis (s : State) : Prop := s.params.Legal ∧ BuffersOk s ∧ CallOk s

theorem CallSteps.regrouped (h : CallSteps s x) (hq : RegroupingBasis s) (hs : Regrouped s) : Regrouped x :=
  (h.preserves (P := fun u => RegroupingBasis u ∧ Regrouped u)
    (fun _ _ hx ⟨⟨hp, hb, hc⟩, hr⟩ =>
      ⟨⟨by rw [hx.params]; exact hp, hx.buffersOk hp hb, hx.callOk hc⟩, hx.regrouped hb hc hr⟩)
    ⟨hq, hs⟩).2

theorem openCall_basis (hp : s.params.Legal) : RegroupingBasis (openCall s) :=
  ⟨hp, buffersOk_of_empty rfl rfl rfl, openCall_callOk s⟩

theorem Change.regrouped (h : Change s x) (hq : RegroupingBasis s) (hs : Regrouped s) : Regrouped x := by
  have hp := h.params
  rcases h.call_cases with ⟨_, hm, hl | rfl⟩ | rfl | hx | hx
  · exact regrouped_congr (by rw [Synced, Synced, hl]; exact id) hp hm (by rw [hl]) (by rw [hl]) (by rw [hl])
      (by rw [hl]) (by rw [hl]) hs
  · exact hs
  · exact regrouped_of_not_synced (not_synced_resetWith s.params)
  · exact hx.regrouped hq hs
  · exact hx.regrouped (openCall_basis hq.1) (regrouped_of_not_synced (by simp [Synced]))

/-- Settles O59, by the elementary steps of a call: a bit in `PAYLOAD` enters `RAW` and the byte being assembled alike, and
nothing else touches either. -/
theorem stepKeepsMessageRegrouped : Obligations.StepKeepsMessageRegrouped := fun _ _ hp hb hc hcount hbits h =>
  step_preserves (Q := RegroupingBasis) (P := Regrouped) (fun _ _ hc hq => by rw [hc.eq_with]; exact hq)
    (fun _ _ hc hs => by rw [hc.eq_with]; exact hs) (fun _ _ hx hq hs => hx.regrouped hq hs) ⟨hp, hb, hc⟩
    ⟨hcount, hbits⟩ h

end Sys2Proof.Machine
end

section
/-! SUPPORT. The control commands, an equation for each case (spec 43_orchestrator.md R200, R203, R204, R208, R210,
70_reset_and_hazards.md R280). -/

namespace Sys2Proof.Machine

variable {s : State}

/-! The step, `NOP` and the resets. -/

/-- Settles O6: the decoder's answer selects the branch of the step. -/
theorem stepRunsDecodedCommand : Obligations.StepRunsDecodedCommand := fun _ _ _ _ => step_of_decode_ok

/-- Settles O8: a format that uses the opcode alone has the opcode to agree with. -/
theorem nopChangesNothing : Obligations.NopChangesNothing :=
  ⟨fun _ hop => decode_eq_ok_iff.2 ⟨rfl, and_maskN_eq_iff.2 hop⟩, fun _ => rfl⟩

theorem exec_srst (s : State) : exec .srst s = .next (resetState s) := rfl

theorem step_of_hardwareReset {rest : List PortEvent} (hp : s.port = .hardwareReset :: rest) :
    step s = .next (resetState (s.withPort rest)) := by
  simp only [step, hp, hardwareReset]

/-- Settles O10: both resets are the one operation `resetState`. -/
theorem srstGivesResetState : Obligations.SrstGivesResetState :=
  ⟨exec_srst, fun s rest hp => (step_of_hardwareReset hp).trans (exec_srst (s.withPort rest)).symm⟩

/-! `CLRH`. -/

theorem exec_clrh_of_running (hr : s.call.fsm.running = true) : exec .clrh s = .next (raise .seq s) := if_pos hr

theorem exec_clrh_of_not_running (hr : s.call.fsm.running = false) : exec .clrh s = .next (clearHistory s) :=
  if_neg (by simp [hr])

/-- Settles O13: the two cases of R210. -/
theorem clrhClearsHistory : Obligations.ClrhClearsHistory := fun _ =>
  ⟨exec_clrh_of_running, exec_clrh_of_not_running⟩

/-! `END`: by the state of the call, and then by the mode. -/

theorem exec_end_of_idle (hf : s.call.fsm = .idle) : exec .endCall s = .next (raise .seq s) := by
  rw [exec, execEnd, hf]

theorem exec_end_of_search (hf : s.call.fsm = .search) : exec .endCall s = .next (endSearch s) := by
  rw [exec, execEnd, hf]

theorem exec_end_of_payload (hf : s.call.fsm = .payload) : exec .endCall s = .next (endPayload s) := by
  rw [exec, execEnd, hf]

theorem exec_end_of_terminal (ht : s.call.fsm.terminal = true) : exec .endCall s = .next s := by
  rcases Fsm.terminal_iff.1 ht with hf | hf | hf <;> rw [exec, execEnd, hf]

theorem endSearch_of_pat (hm : s.cfg.sync = .pat) :
    endSearch s = finalize .unsynced (s.withCall { s.call with nopre := true }) := if_pos hm

theorem endSearch_of_not_pat (hm : s.cfg.sync ≠ .pat) : endSearch s = finalize .silence s := if_neg hm

theorem endPayload_of_not_tone (hm : s.cfg.sync ≠ .tone) :
    endPayload s = finalize .done (s.withCall { s.call with short := true }) := if_pos hm

theorem endPayload_of_tone (hm : s.cfg.sync = .tone) : endPayload s = finalize .done s := if_neg (not_not.2 hm)

/-- Settles O12: the state of the call selects the row, and in `SEARCH` and `PAYLOAD` the mode selects the flag. -/
theorem endClosesCall : Obligations.EndClosesCall := by
  refine fun s => ⟨exec_end_of_idle, fun hf hm => ?_, fun hf hm => ?_, fun hf hm => ?_, fun hf hm => ?_,
    exec_end_of_terminal⟩
  · rw [exec_end_of_search hf, endSearch_of_pat hm]
    rfl
  · rw [exec_end_of_search hf, endSearch_of_not_pat hm]
    rfl
  · rw [exec_end_of_payload hf, endPayload_of_not_tone hm]
    rfl
  · rw [exec_end_of_payload hf, endPayload_of_tone hm]
    rfl

end Sys2Proof.Machine
end

section
/-! SUPPORT. `START` and what zero records decide (spec 43_orchestrator.md R205, R206, 41_synchronizer.md R152,
R171). -/

namespace Sys2Proof.Machine

variable {s : State}

theorem exec_start_of_running (hr : s.call.fsm.running = true) : exec .start s = .next (raise .seq s) := if_pos hr

theorem exec_start_of_not_running (hr : s.call.fsm.running = false) :
    exec .start s = .next (decideAtStart (openCall s)) := if_neg (by simp [hr])

theorem zext16_eq_zero_iff {v : Half} : zext16 v = 0 ↔ v = 0 := by
  rw [zext16, ← BitVec.toNat_inj]
  rfl

theorem Cfg.payloadStart_eq_zero_iff {c : Cfg} : c.payloadStart = 0 ↔ c.preStart = 0 ∧ c.preLen = 0 := by
  rw [Cfg.payloadStart, Nat.add_eq_zero_iff, zext16_eq_zero_iff, zext16_eq_zero_iff]

/-- No sample, no presence (R152). -/
theorem present_of_no_sample (h : s.call.wcnt = 0) : present s = false := by
  simp [present, h]

theorem decideAtStart_of_pos (hm : s.cfg.sync = .pos) : decideAtStart s = posCheck s := if_pos hm

theorem decideAtStart_of_not_decided (hpos : s.cfg.sync ≠ .pos) (hpat : ¬ (s.cfg.sync = .pat ∧ s.cfg.patLen = 0)) :
    decideAtStart s = s := by
  rw [decideAtStart, if_neg hpos, if_neg fun ⟨hm, hn⟩ => hpat ⟨hm, zext16_eq_zero_iff.1 hn⟩]

/-- Positional mode, empty window at index 0: the index 0 is already its end. -/
theorem decideAtStart_openCall_of_empty_window (hm : s.cfg.sync = .pos)
    (hw : s.cfg.preStart = 0 ∧ s.cfg.preLen = 0) :
    decideAtStart (openCall s) = finalize .silence (openCall s) := by
  have hdue : (openCall s).call.pos.toNat = (openCall s).cfg.payloadStart := (Cfg.payloadStart_eq_zero_iff.2 hw).symm
  rw [decideAtStart_of_pos (s := openCall s) hm,
    posCheck_search_of_absent (s := openCall s) hm rfl hdue (present_of_no_sample rfl)]

theorem decideAtStart_openCall_of_window (hm : s.cfg.sync = .pos)
    (hw : ¬ (s.cfg.preStart = 0 ∧ s.cfg.preLen = 0)) : decideAtStart (openCall s) = openCall s := by
  have hearly : (openCall s).call.pos.toNat ≠ (openCall s).cfg.payloadStart :=
    fun hp => hw (Cfg.payloadStart_eq_zero_iff.1 hp.symm)
  rw [decideAtStart_of_pos (s := openCall s) hm, posCheck_search_of_early rfl hearly]

/-- Pattern mode, empty pattern: it has come before any bit. -/
theorem decideAtStart_of_empty_pattern (hm : s.cfg.sync = .pat) (hn : s.cfg.patLen = 0) :
    decideAtStart s = enterPayload s := by
  rw [decideAtStart, if_neg (by simp [hm]), if_pos ⟨hm, zext16_eq_zero_iff.2 hn⟩]

/-- Settles O11: of the three modes only positional and pattern mode can decide anything of an opened call, in which
everything that `EnterPayload` and `Finalize` copy is 0. -/
theorem startOpensCall : Obligations.StartOpensCall := by
  refine fun s => ⟨exec_start_of_running, fun hr => ?_⟩
  rw [exec_start_of_not_running hr]
  by_cases hpos : s.cfg.sync = .pos
  · have hpat : ¬ (s.cfg.sync = .pat ∧ s.cfg.patLen = 0) := by simp [hpos]
    by_cases hw : s.cfg.preStart = 0 ∧ s.cfg.preLen = 0
    · rw [if_pos ⟨hpos, hw⟩, decideAtStart_openCall_of_empty_window hpos hw]
      rfl
    · rw [if_neg fun h => hw h.2, if_neg hpat, decideAtStart_openCall_of_window hpos hw]
      rfl
  · rw [if_neg fun h => hpos h.1]
    by_cases hpat : s.cfg.sync = .pat ∧ s.cfg.patLen = 0
    · obtain ⟨hm, hn⟩ := hpat
      rw [if_pos ⟨hm, hn⟩, decideAtStart_of_empty_pattern (s := openCall s) hm hn]
      by_cases hl : s.cfg.payLen = 0 ∨ s.cfg.capBits = 0
      · rw [if_pos hl, enterPayload_of_empty (s := openCall s) (by simp [hm]) (Cfg.payloadLen_eq_zero_iff.2 hl)]
        rfl
      · rw [if_neg hl, enterPayload_of_reading (s := openCall s) (.inr fun hz => hl (Cfg.payloadLen_eq_zero_iff.1 hz))]
        rfl
    · rw [if_neg hpat, decideAtStart_of_not_decided (s := openCall s) hpos hpat]
      rfl

end Sys2Proof.Machine
end

section
/-! SUPPORT. The transitions of `FSM` (spec 43_orchestrator.md R201). -/

namespace Sys2Proof.Machine

variable {s t u x : State} {i : Instr}

/-- The rows of R201's table that a record takes, by the mode. -/
def RecordMove : Sync → Fsm → Fsm → Prop
  | .pos, f, g =>
    (f = .search ∧ (g = .payload ∨ g = .done ∨ g = .silence)) ∨ (f = .payload ∧ g = .done)
  | .pat, f, g => (f = .search ∧ (g = .payload ∨ g = .done)) ∨ (f = .payload ∧ g = .done)
  | .tone, f, g => f = .search ∧ g = .payload
  | .reserved, _, _ => False

/-- `FSM` stays or takes a row of the table, under the mode of the first state. -/
abbrev RecordMoves (s x : State) : Prop :=
  x.call.fsm = s.call.fsm ∨ RecordMove s.cfg.sync s.call.fsm x.call.fsm

/-- `PosCheck` takes the rows of positional mode (41_synchronizer.md R171). -/
theorem posCheck_moves (s : State) : RecordMoves s (posCheck s) := by
  by_cases hm : s.cfg.sync = .pos
  case neg => exact .inl (by rw [posCheck_of_not_pos hm])
  rw [RecordMoves, hm]
  cases hf : s.call.fsm with
  | search =>
    by_cases hp : s.call.pos.toNat = s.cfg.payloadStart
    · cases ha : present s with
      | false =>
        rw [posCheck_search_of_absent hm hf hp ha]
        exact .inr (.inl ⟨rfl, .inr (.inr rfl)⟩)
      | true =>
        rw [posCheck_search_of_present hm hf hp ha]
        exact .inr (.inl ⟨rfl, (enterPayload_fsm s).imp_right .inl⟩)
    · exact .inl (by rw [posCheck_search_of_early hf hp, hf])
  | payload =>
    by_cases hp : s.call.pos.toNat = s.cfg.payloadStart + s.cfg.payloadLen
    · rw [posCheck_payload_of_due hm hf hp]
      exact .inr (.inr ⟨rfl, rfl⟩)
    · exact .inl (by rw [posCheck_payload_of_early hf hp, hf])
  | _ => exact .inl (by rw [posCheck_of_not_running (by rw [hf]; rfl), hf])

/-- The same where `FSM` and the mode have not changed since `s`. -/
theorem posCheck_moves_of_same (hc : u.cfg = s.cfg) (hf : u.call.fsm = s.call.fsm) : RecordMoves s (posCheck u) := by
  have h := posCheck_moves u
  rwa [RecordMoves, hc, hf] at h

/-- In `SEARCH` a bit may match the pattern, in `PAYLOAD` it may be the last (42_reassembler.md R181). -/
theorem emitBit_moves_of_pat (b : Bool) (hm : s.cfg.sync = .pat) : RecordMoves s (emitBit b s) := by
  rw [RecordMoves, hm]
  cases hf : s.call.fsm with
  | search =>
    rw [emitBit_search_eq b hf]
    split
    · exact .inr (.inl ⟨rfl, enterPayload_fsm _⟩)
    · exact .inl ((takeSearchBit_call_fsm b s).trans hf)
  | payload =>
    rw [emitBit_payload_fsm s b hf]
    split
    · exact .inr (.inr ⟨rfl, rfl⟩)
    · exact .inl rfl
  | _ => exact .inl (by simp [emitBit, hf])

/-- A bit and then `PosCheck`: each of the two modes that emit bits ends a call by one of them alone. -/
theorem posCheck_emitBit_moves (b : Bool) (he : s.cfg.sync = .pat ∨ s.call.fsm = .payload) :
    RecordMoves s (posCheck (emitBit b s)) := by
  by_cases hm : s.cfg.sync = .pat
  · rw [posCheck_of_not_pos (by simp [hm])]
    exact emitBit_moves_of_pat b hm
  · have hf := he.resolve_left hm
    exact posCheck_moves_of_same (emitBit_cfg s b) ((emitBit_fsm_of_not_pat b hm hf).trans hf.symm)

theorem Fsm.payload_of_running {f : Fsm} (hr : f.running = true) (hs : f ≠ .search) : f = .payload := by
  cases f with
  | search => exact absurd rfl hs
  | payload => rfl
  | _ => cases hr

/-- In tone mode the handshake alone moves the call, in the power modes a bit and `PosCheck` do (R140). -/
theorem SampleEffect.moves {d : Half} (h : SampleEffect d s x) (hr : s.call.fsm.running = true) : RecordMoves s x := by
  cases h with
  | handshake hm hf =>
    rw [enterPayload_of_reading (s := advancePos s) (.inl hm), RecordMoves, hm]
    exact .inr ⟨hf, rfl⟩
  | otherTone _ _ => exact .inl rfl
  | drop _ _ => exact .inl rfl
  | symbol k hm hs =>
    have hpat : (advancePos s).cfg.sync ≠ .pat := by simp [hm]
    have hf : (advancePos s).call.fsm = .payload := Fsm.payload_of_running hr hs
    have hfirst := emitBit_fsm_of_not_pat (k.getLsbD 1) hpat hf
    exact .inl ((emitBit_fsm_of_not_pat _ (by rwa [emitBit_cfg]) hfirst).trans hf.symm)
  | glitched _ _ => exact posCheck_moves_of_same rfl rfl
  | noBit _ _ => exact posCheck_moves_of_same (by simp) (by simp)
  | bit b _ _ he =>
    have h := posCheck_emitBit_moves
      (s := classifyUpdate d (windowSample s.call.pos.toNat d (advancePos s))) b (by simpa using he)
    simpa [RecordMoves] using h

theorem skip_moves (s : State) : RecordMoves s (posCheck (countSkip (advancePos s))) := posCheck_moves_of_same rfl rfl

/-- A `SKIP` brings no bit and no tone, so outside positional mode it moves nothing (41_synchronizer.md R170). -/
theorem skip_fsm_of_not_pos (hm : s.cfg.sync ≠ .pos) :
    (posCheck (countSkip (advancePos s))).call.fsm = s.call.fsm := by
  rw [posCheck_of_not_pos (by simpa using hm)]
  rfl

/-- The rows of `START` (R205): only positional mode ends in `SILENCE`, only pattern mode passes the sync. -/
theorem decideAtStart_openCall_fsm (s : State) :
    (decideAtStart (openCall s)).call.fsm = .search ∨
      ((decideAtStart (openCall s)).call.fsm = .silence ∧ s.cfg.sync = .pos) ∨
      (((decideAtStart (openCall s)).call.fsm = .payload ∨ (decideAtStart (openCall s)).call.fsm = .done) ∧
        s.cfg.sync = .pat) := by
  by_cases hpos : s.cfg.sync = .pos
  · by_cases hw : s.cfg.preStart = 0 ∧ s.cfg.preLen = 0
    · rw [decideAtStart_openCall_of_empty_window hpos hw]
      exact .inr (.inl ⟨rfl, hpos⟩)
    · exact .inl (by rw [decideAtStart_openCall_of_window hpos hw]; rfl)
  · by_cases hpat : s.cfg.sync = .pat ∧ s.cfg.patLen = 0
    · rw [decideAtStart_of_empty_pattern (s := openCall s) hpat.1 hpat.2]
      exact .inr (.inr ⟨enterPayload_fsm _, hpat.1⟩)
    · exact .inl (by rw [decideAtStart_of_not_decided (s := openCall s) hpos hpat]; rfl)

theorem endSearch_fsm (s : State) :
    (s.cfg.sync ≠ .pat ∧ (endSearch s).call.fsm = .silence) ∨
      (s.cfg.sync = .pat ∧ (endSearch s).call.fsm = .unsynced) := by
  by_cases hm : s.cfg.sync = .pat
  · exact .inr ⟨hm, by rw [endSearch_of_pat hm]; rfl⟩
  · exact .inl ⟨hm, by rw [endSearch_of_not_pat hm]; rfl⟩

theorem endPayload_fsm (s : State) : (endPayload s).call.fsm = .done := by
  by_cases hm : s.cfg.sync = .tone
  · rw [endPayload_of_tone hm]
    rfl
  · rw [endPayload_of_not_tone hm]
    rfl

/-- Settles O47: of the effects of a command those that move `FSM` are `SRST` and the commands of the call, each by its
own rows. -/
theorem fsmFollowsTable : Obligations.FsmFollowsTable := by
  intro i s t h
  cases exec_effect h with
  | reset => exact .inr (.inr (.inr (.inr (.inr (.inr (.inr (.inr ⟨rfl, rfl⟩)))))))
  | start hn => exact .inr (.inl ⟨rfl, hn, decideAtStart_openCall_fsm s⟩)
  | sample d hr =>
    rcases (sampleRunning_effect d s).moves hr with hsame | hrow
    · exact .inl hsame
    · cases hm : s.cfg.sync with
      | pos => exact .inr (.inr (.inl ⟨.inl ⟨d, rfl⟩, rfl, by rwa [hm] at hrow⟩))
      | pat => exact .inr (.inr (.inr (.inl ⟨⟨d, rfl⟩, rfl, by rwa [hm] at hrow⟩)))
      | tone => exact .inr (.inr (.inr (.inr (.inl ⟨⟨d, rfl⟩, rfl, by rwa [hm] at hrow⟩))))
      | reserved =>
        rw [hm] at hrow
        cases hrow
  | skip _ =>
    by_cases hm : s.cfg.sync = .pos
    · rcases skip_moves s with hsame | hrow
      · exact .inl hsame
      · exact .inr (.inr (.inl ⟨.inr rfl, hm, by rwa [hm] at hrow⟩))
    · exact .inl (skip_fsm_of_not_pos hm)
  | endSearch hf =>
    rcases endSearch_fsm s with ⟨hm, ht⟩ | ⟨hm, ht⟩
    · exact .inr (.inr (.inr (.inr (.inr (.inl ⟨rfl, hf, hm, ht⟩)))))
    · exact .inr (.inr (.inr (.inr (.inr (.inr (.inl ⟨rfl, hf, hm, ht⟩))))))
  | endPayload hf =>
    exact .inr (.inr (.inr (.inr (.inr (.inr (.inr (.inl ⟨rfl, hf, endPayload_fsm s⟩)))))))
  | _ => exact .inl (by simp)

end Sys2Proof.Machine
end

section
/-! SUPPORT. `WRREG` and the legal values, an equation for each case (spec 44_register_access.md R231 to R234). -/

namespace Sys2Proof.Machine

variable {s : State}

/-! The legal values of a register. -/

theorem legalMode_iff {d : Half} :
    legalMode d = true ↔ d &&& 0xFECC = 0 ∧ d.extractLsb' 0 2 ≠ 3 ∧ d.extractLsb' 4 2 ≠ 3 := by
  simp [legalMode, and_assoc]

/-- The second column of R234's table. -/
theorem legalValue_iff {p : Params} {r : CfgReg} {d : Half} : legalValue p r d = true ↔
    (r = .mode → d &&& 0xFECC = 0 ∧ d.extractLsb' 0 2 ≠ 3 ∧ d.extractLsb' 4 2 ≠ 3) ∧
    (r = .win ∨ r = .calLen → 1 ≤ d.toNat ∧ d.toNat ≤ p.nmax) ∧
    (r = .patLen → d.toNat ≤ 16) := by
  cases r with
  | mode => simp [legalValue, legalMode_iff]
  | _ => simp [legalValue]

/-- Without a reserved bit a value of MODE is made of its fields BASE, CLS and SYNC (10_state.md R26). -/
theorem mode_eq_fields {d : Half} (h : d &&& 0xFECC = 0) :
    d = 0#7 ++ (d.extractLsb' 8 1 ++ (0#2 ++ (d.extractLsb' 4 2 ++ (0#2 ++ d.extractLsb' 0 2)))) := by
  apply BitVec.eq_of_getLsbD_eq
  intro i hi
  have hbit : (d.getLsbD i && (0xFECC#16).getLsbD i) = false := by
    rw [← BitVec.getLsbD_and]
    exact (congrArg (BitVec.getLsbD · i) h).trans BitVec.getLsbD_zero
  simp only [BitVec.getLsbD_append, BitVec.getLsbD_extractLsb']
  interval_cases i <;> simp_all

/-- The fields side by side and the fields added up are the same word. -/
theorem modeFields_eq_add : ∀ (base : BitVec 1) (cls sync : BitVec 2),
    0#7 ++ (base ++ (0#2 ++ (cls ++ (0#2 ++ sync)))) =
      (base.setWidth 16 <<< 8) + sync.setWidth 16 + (cls.setWidth 16 <<< 4) := by
  decide

/-- Settles O15: the three fields take two, three and three values. -/
theorem legalModeWords : Obligations.LegalModeWords := by
  refine fun d => ⟨fun h => ?_, ?_⟩
  · obtain ⟨hmask, hsync, hcls⟩ := legalMode_iff.1 h
    have base_listed : ∀ x : BitVec 1, x.setWidth 16 <<< 8 ∈ [0x0000#16, 0x0100#16] := by decide
    have sync_listed : ∀ x : BitVec 2, x ≠ 3 → x.setWidth 16 ∈ [0#16, 1#16, 2#16] := by decide
    have cls_listed : ∀ x : BitVec 2, x ≠ 3 → x.setWidth 16 <<< 4 ∈ [0x00#16, 0x10#16, 0x20#16] := by decide
    exact ⟨_, base_listed _, _, sync_listed _ hsync, _, cls_listed _ hcls,
      (mode_eq_fields hmask).trans (modeFields_eq_add _ _ _)⟩
  · rintro ⟨base, hbase, sync, hsync, cls, hcls, rfl⟩
    simp only [List.mem_cons, List.not_mem_nil, or_false] at hbase hsync hcls
    rcases hbase with rfl | rfl <;> rcases hsync with rfl | rfl | rfl <;> rcases hcls with rfl | rfl | rfl <;> rfl

/-! The three checks and the write. -/

theorem exec_wrreg_of_running {reg : Reg} {d : Half} (hr : s.call.fsm.running = true) :
    exec (.wrreg reg d) s = .next (raise .cfgBusy s) := if_pos hr

theorem exec_wrreg_of_not_cfg {reg : Reg} {d : Half} (hr : s.call.fsm.running = false) (hn : ∀ r, reg ≠ .cfg r) :
    exec (.wrreg reg d) s = .next (raise .addr s) := by
  cases reg with
  | cfg r => exact absurd rfl (hn r)
  | stat r => exact if_neg (by simp [hr])
  | unimplemented n => exact if_neg (by simp [hr])

theorem exec_wrreg_cfg {r : CfgReg} {d : Half} (hr : s.call.fsm.running = false) : exec (.wrreg (.cfg r) d) s =
    if legalValue s.params r d then .next (writeCfg r d s) else .next (raise .cfgVal s) := if_neg (by simp [hr])

/-- An accepted write: the register, and for three registers the history (R233). -/
theorem writeCfg_eq (r : CfgReg) (d : Half) (s : State) : writeCfg r d s = { s with
    cfg := s.cfg.write r d
    cls := if r = .mode ∨ r = .win ∨ r = .calLen then Classifier.reset else s.cls } := by
  simp only [writeCfg, clearsHistory_iff]
  split <;> rfl

/-- Settles O14: the checks one after the other, and the write by what its registers read. -/
theorem wrregWritesOrRefuses : Obligations.WrregWritesOrRefuses := by
  refine fun s reg d => ⟨exec_wrreg_of_running, exec_wrreg_of_not_cfg, ?_⟩
  rintro r rfl hr
  refine ⟨fun hillegal => ?_, fun hmode hwin hpat => ⟨s.cfg.write r d, ?_, ?_, fun r' hne => ?_⟩⟩
  · rw [exec_wrreg_cfg hr, if_neg (mt legalValue_iff.1 hillegal)]
    rfl
  · rw [exec_wrreg_cfg hr, if_pos (legalValue_iff.2 ⟨hmode, hwin, hpat⟩), writeCfg_eq]
    rfl
  · rw [cfg_read_write, if_pos rfl]
  · rw [cfg_read_write, if_neg hne]

end Sys2Proof.Machine
end

section
/-! SUPPORT. The reads of registers and buffers, an equation for each case (spec 44_register_access.md R236 to R243). -/

namespace Sys2Proof.Machine

variable {s : State}

theorem exec_rdreg_cfg (r : CfgReg) (s : State) :
    exec (.rdreg (.cfg r)) s = .next (respond ((s.cfg.read r).setWidth 32) s) := rfl

theorem exec_rdreg_stat (r : StatReg) (s : State) :
    exec (.rdreg (.stat r)) s = .next (respond (statusValue s r) s) := rfl

theorem exec_rdreg_unimplemented (n : RegNumber) (s : State) :
    exec (.rdreg (.unimplemented n)) s = .next (raise .addr (respond 0 s)) := rfl

/-- Settles O16: the listed pairs are the table of `statusValue` over all status registers. -/
theorem rdregResponds : Obligations.RdregResponds := by
  refine fun s => ⟨fun r => exec_rdreg_cfg r s, fun n => exec_rdreg_unimplemented n s, fun r v hv => ?_⟩
  have htable : (r, v) ∈ StatReg.all.map fun q => (q, statusValue s q) := hv
  obtain ⟨q, _, hq⟩ := List.mem_map.1 htable
  obtain ⟨rfl, rfl⟩ := Prod.mk.inj hq
  exact exec_rdreg_stat q s

theorem exec_rdmsg_of_lt {i : Half} (h : i.toNat < s.mem.msg.length) :
    exec (.rdmsg i) s = .next (respond ((s.mem.msg[i.toNat]).setWidth 32) s) := by
  have hread : s.mem.readMsg (zext16 i) = some s.mem.msg[i.toNat] := List.getElem?_eq_getElem h
  rw [exec, execRdmsg, hread]

theorem exec_rdmsg_of_le {i : Half} (h : s.mem.msg.length ≤ i.toNat) :
    exec (.rdmsg i) s = .next (raise .range (respond 0 s)) := by
  have hread : s.mem.readMsg (zext16 i) = none := List.getElem?_eq_none h
  rw [exec, execRdmsg, hread]

/-- Settles O18: the byte is in the list or it is not. -/
theorem rdmsgResponds : Obligations.RdmsgResponds := fun _ _ => ⟨exec_rdmsg_of_lt, exec_rdmsg_of_le⟩

theorem exec_rdraw_of_lt {w : Half} (h : 32 * w.toNat < s.mem.raw.length) :
    exec (.rdraw w) s = .next (respond (s.mem.rawWord w.toNat) s) := if_pos h

theorem exec_rdraw_of_le {w : Half} (h : s.mem.raw.length ≤ 32 * w.toNat) :
    exec (.rdraw w) s = .next (raise .range (respond 0 s)) := if_neg (Nat.not_lt.2 h)

/-- The bits of a word of `RAW` from the highest down (20_memory.md R64): those stored, and then zeros. -/
theorem getLsbD_rawWord (m : Memory) (w : Nat) {k : Nat} (hk : k < 32) : (m.rawWord w).getLsbD (31 - k) =
    if h : 32 * w + k < m.raw.length then m.raw[32 * w + k] else false := by
  have hbit : (m.rawWord w).getLsbD (31 - k) = m.raw.getD (32 * w + k) false := getLsbD_packBits m.raw (32 * w) 32 k hk
  rw [hbit]
  split
  next h => exact List.getD_eq_getElem _ _ h
  next h => exact List.getD_eq_default _ _ (Nat.not_lt.1 h)

/-- Settles O19: the answer is the word of `RAW`, bit by bit. -/
theorem rdrawResponds : Obligations.RdrawResponds := fun s w =>
  ⟨fun h => ⟨s.mem.rawWord w.toNat, exec_rdraw_of_lt h, fun _ hk => getLsbD_rawWord s.mem w.toNat hk⟩,
    exec_rdraw_of_le⟩

end Sys2Proof.Machine
end

section
/-! SUPPORT. What each command can do to ERR, a statement for each (spec 60_exceptions.md R251 to R254). -/

namespace Sys2Proof.Machine

variable {s t : State}

/-- ERR gains nothing, or the one bit of an allowed error. -/
abbrev GainsAtMostOne (allowed : ErrBit → Prop) (s t : State) : Prop :=
  t.err = s.err ∨ ∃ e : ErrBit, t.err = s.err ||| e.mask ∧ allowed e

/-- A gained bit takes none away (R251). -/
theorem GainsAtMostOne.keeps {allowed : ErrBit → Prop} {k : Nat} (h : GainsAtMostOne allowed s t)
    (hk : s.err.getLsbD k = true) : t.err.getLsbD k = true := by
  rcases h with he | ⟨e, he, _⟩ <;> simp [he, hk]

theorem raise_gains {allowed : ErrBit → Prop} {e : ErrBit} (he : allowed e) : GainsAtMostOne allowed s (raise e s) :=
  .inr ⟨e, rfl, he⟩

theorem exec_wrreg_gains {reg : Reg} {d : Half} (h : exec (.wrreg reg d) s = .next t) :
    GainsAtMostOne (fun e => e = .cfgBusy ∨ e = .addr ∨ e = .cfgVal) s t := by
  rcases execWrreg_cases h with ⟨_, rfl⟩ | ⟨_, ⟨_, rfl⟩ | ⟨_, _, _, rfl⟩ | ⟨r, _, _, rfl⟩⟩
  · exact raise_gains (.inl rfl)
  · exact raise_gains (.inr (.inl rfl))
  · exact raise_gains (.inr (.inr rfl))
  · exact .inl (by simp)

theorem exec_rdreg_gains {reg : Reg} (h : exec (.rdreg reg) s = .next t) : GainsAtMostOne (· = .addr) s t := by
  cases reg with
  | cfg r => cases (exec_rdreg_cfg r s).symm.trans h; exact .inl rfl
  | stat r => cases (exec_rdreg_stat r s).symm.trans h; exact .inl rfl
  | unimplemented n => cases (exec_rdreg_unimplemented n s).symm.trans h; exact .inr ⟨_, rfl, rfl⟩

theorem exec_start_gains (h : exec .start s = .next t) : GainsAtMostOne (· = .seq) s t := by
  rcases execStart_cases h with ⟨_, rfl⟩ | ⟨_, rfl⟩
  · exact raise_gains rfl
  · exact .inl (by simp)

/-- Of the accepted samples only one under CAL without a baseline raises an error (40_classifier.md R121). -/
theorem exec_sample_gains {d : Half} (h : exec (.sample d) s = .next t) :
    GainsAtMostOne (fun e => e = .seq ∨ e = .noCal) s t := by
  rcases execSample_cases h with ⟨_, rfl⟩ | ⟨_, rfl⟩ | ⟨_, rfl⟩
  · exact raise_gains (.inl rfl)
  · exact .inl rfl
  · have herr := (sampleRunning_effect d s).err
    split at herr
    · exact .inr ⟨.noCal, herr, .inr rfl⟩
    · exact .inl herr

theorem exec_skip_gains (h : exec .skip s = .next t) : GainsAtMostOne (· = .seq) s t := by
  rcases execSkip_cases h with ⟨_, rfl⟩ | ⟨_, rfl⟩ | ⟨_, rfl⟩
  · exact raise_gains rfl
  · exact .inl rfl
  · exact .inl (by simp)

theorem exec_end_gains (h : exec .endCall s = .next t) : GainsAtMostOne (· = .seq) s t := by
  rcases execEnd_cases h with ⟨_, rfl⟩ | ⟨_, rfl⟩ | ⟨_, rfl⟩ | ⟨_, rfl⟩
  · exact raise_gains rfl
  · exact .inl rfl
  · exact .inl (by simp)
  · exact .inl (by simp)

theorem exec_cals_gains {d : Half} (h : exec (.cals d) s = .next t) : GainsAtMostOne (· = .seq) s t := by
  rcases execCals_cases h with ⟨_, rfl⟩ | ⟨_, _, ⟨_, rfl⟩ | ⟨_, _, rfl⟩ | ⟨_, _, rfl⟩⟩
  · exact raise_gains rfl
  · exact .inl rfl
  · exact .inl rfl
  · exact .inl (by simp)

theorem exec_clrh_gains (h : exec .clrh s = .next t) : GainsAtMostOne (· = .seq) s t := by
  rcases execClrh_cases h with ⟨_, rfl⟩ | ⟨_, rfl⟩
  · exact raise_gains rfl
  · exact .inl rfl

theorem exec_rdmsg_gains {i : Half} (h : exec (.rdmsg i) s = .next t) : GainsAtMostOne (· = .range) s t := by
  rcases Nat.lt_or_ge i.toNat s.mem.msg.length with hi | hi
  · cases (exec_rdmsg_of_lt hi).symm.trans h; exact .inl rfl
  · cases (exec_rdmsg_of_le hi).symm.trans h; exact .inr ⟨_, rfl, rfl⟩

theorem exec_rdraw_gains {w : Half} (h : exec (.rdraw w) s = .next t) : GainsAtMostOne (· = .range) s t := by
  rcases Nat.lt_or_ge (32 * w.toNat) s.mem.raw.length with hw | hw
  · cases (exec_rdraw_of_lt hw).symm.trans h; exact .inl rfl
  · cases (exec_rdraw_of_le hw).symm.trans h; exact .inr ⟨_, rfl, rfl⟩

/-- Settles O48: the table of R252, command by command. -/
theorem atMostOneErrorBit : Obligations.AtMostOneErrorBit := by
  intro i s t hi h
  cases i with
  | nop => cases h; exact .inl rfl
  | srst => exact absurd rfl hi
  | wrreg reg d => exact exec_wrreg_gains h
  | rdreg reg => exact exec_rdreg_gains h
  | start => exact exec_start_gains h
  | sample d => exact exec_sample_gains h
  | skip => exact exec_skip_gains h
  | endCall => exact exec_end_gains h
  | cals d => exact exec_cals_gains h
  | clrh => exact exec_clrh_gains h
  | rdmsg i => exact exec_rdmsg_gains h
  | rdraw w => exact exec_rdraw_gains h

/-- Settles O49: a command other than `SRST` and an illegal word gain a bit at most (O48), and a gained bit takes none
away. -/
theorem errorsAreSticky : Obligations.ErrorsAreSticky := by
  intro s t k h hk
  rcases step_cases h with ⟨_, rfl⟩ | ⟨rest, hp, _⟩ | ⟨_, rest, _, _, _, rfl⟩ | ⟨w, rest, i, hp, hi, hx⟩
  · exact .inl hk
  · exact .inr (.inl ⟨rest, hp⟩)
  · have hraise : GainsAtMostOne (· = .ill) (s.withPort rest) (raise .ill (s.withPort rest)) := raise_gains rfl
    exact .inl (hraise.keeps hk)
  · by_cases hsrst : i = .srst
    · exact .inr (.inr ⟨w, rest, hp, hsrst ▸ hi⟩)
    · exact .inl (GainsAtMostOne.keeps (atMostOneErrorBit i _ t hsrst hx) hk)

end Sys2Proof.Machine
end

section
/-! SUPPORT. No command and no step is refused or ends in a fault (spec 60_exceptions.md R250, R255). -/

namespace Sys2Proof.Machine

/-- The outcome is a next state. -/
abbrev Completes (o : Host.Outcome State Fault Refusal) : Prop := ∃ t, o = .next t

theorem next_completes (t : State) : Completes (.next t) := ⟨t, rfl⟩

/-- A test whose two branches complete completes. -/
theorem ite_completes {c : Prop} {dec : Decidable c} {a b : Host.Outcome State Fault Refusal}
    (ha : Completes a) (hb : Completes b) : Completes (if c then a else b) := by
  split
  · exact ha
  · exact hb

theorem execWrreg_completes (reg : Reg) (d : Half) (s : State) : Completes (execWrreg reg d s) := by
  refine ite_completes (next_completes _) ?_
  cases reg with
  | cfg r => exact ite_completes (next_completes _) (next_completes _)
  | stat r => exact next_completes _
  | unimplemented n => exact next_completes _

/-- The gates of R141, as `SAMPLE` and `SKIP` have them. -/
theorem gated_completes (s t : State) :
    Completes (if s.call.fsm = .idle then .next (raise .seq s)
      else if s.call.fsm.terminal then .next s else .next t) :=
  ite_completes (next_completes _) (ite_completes (next_completes _) (next_completes _))

theorem execEnd_completes (s : State) : Completes (execEnd s) := by
  unfold execEnd
  split <;> exact next_completes _

theorem execCals_completes (d : Half) (s : State) : Completes (execCals d s) :=
  ite_completes (next_completes _) (ite_completes (next_completes _)
    (ite_completes (next_completes _) (ite_completes (next_completes _) (next_completes _))))

theorem exec_completes (i : Instr) (s : State) : Completes (exec i s) := by
  cases i with
  | nop => exact next_completes s
  | srst => exact next_completes _
  | wrreg reg d => exact execWrreg_completes reg d s
  | rdreg reg => cases reg <;> exact next_completes _
  | start => exact ite_completes (next_completes _) (next_completes _)
  | sample d => exact gated_completes s _
  | skip => exact gated_completes s _
  | endCall => exact execEnd_completes s
  | cals d => exact execCals_completes d s
  | clrh => exact ite_completes (next_completes _) (next_completes _)
  | rdmsg i =>
    rcases Nat.lt_or_ge i.toNat s.mem.msg.length with hi | hi
    · exact ⟨_, exec_rdmsg_of_lt hi⟩
    · exact ⟨_, exec_rdmsg_of_le hi⟩
  | rdraw w => exact ite_completes (next_completes _) (next_completes _)

/-- A step is idle, a reset, a command or the illegal command (43_orchestrator.md R200), and each completes. -/
theorem step_completes (s : State) : Completes (step s) := by
  match hp : s.port with
  | [] => exact ⟨s, by rw [step, hp]⟩
  | .hardwareReset :: rest => exact ⟨_, step_of_hardwareReset hp⟩
  | .command w :: rest =>
    match hd : decode w with
    | .ok i =>
      rw [step_of_decode_ok hp hd]
      exact exec_completes i _
    | .error e => exact ⟨_, step_of_decode_error hp hd⟩

/-- Settles O7: the branches of a step and of every command end in a next state. -/
theorem everyStepCompletes : Obligations.EveryStepCompletes := ⟨step_completes, exec_completes⟩

end Sys2Proof.Machine
end

section
/-! SUPPORT. The words listed in the test vectors, each through the fields that its command's format uses (spec
30_encoding.md R80 to R85, 95_test_vectors.md B1, B2). -/

namespace Sys2Proof

/-- Settles O5: a listed word has the fields of its command in the command's format, whatever its other bits hold
(`0x0ABCDEF0`, `0x2F02001E`, `0x3040FFFF` and `0x50FFFA60` set some of those), and the opcode of the last word is illegal. -/
theorem listedWordsDecode : Obligations.ListedWordsDecode := by
  refine ⟨?nop, ?wrreg, ?rdreg, ?unimplemented, ?sample, ?cals, ?endCall, ?rdmsg, ?illegal⟩
  case nop | endCall => exact decode_of_agrees rfl (and_maskN_eq_iff.2 rfl)
  case sample | cals | rdmsg => exact decode_of_agrees rfl (and_maskD_eq_iff.2 ⟨rfl, rfl⟩)
  case rdreg | unimplemented => exact decode_of_agrees rfl (and_maskR_eq_iff.2 ⟨rfl, rfl⟩)
  case wrreg => exact decode_of_agrees rfl (and_maskW_eq_iff.2 ⟨rfl, rfl, rfl⟩)
  case illegal => exact decode_of_illegal (by decide)

end Sys2Proof
end
